-- ==== Sys2Proof/Word.lean ====
section
/-! DEFINITION. The widths of the Cube96 core: bytes, words, Blocks, seeds, and the shapes of the
key-dependent registers and tables. Nothing here computes; the units stand under Machine/. -/

namespace Sys2Proof

/-- A byte: bit 7 most significant, bit 0 least (00_scope.md R12). -/
abbrev Byte := BitVec 8

/-- The `u32` of SHA-256 (00_scope.md R14, R16). -/
abbrev Word32 := BitVec 32

/-- The `u64` of SplitMix64 (00_scope.md R14, R16). -/
abbrev Word64 := BitVec 64

/-- A Block: 12 bytes, 96 bits (00_scope.md R12), held on the flat bus of 10_state.md R21: the bit with
global index i is bit 95 − i, byte 0 is bits 95..88, and 24 hex digits read from the top bit. -/
abbrev Block := BitVec 96

/-- A permutation seed: 8 bytes, byte 0 in bits 63..56 (10_state.md R23), so the stored word is the
`u64` read big-endian (20_memory.md R58). -/
abbrev Seed := BitVec 64

/-- A Permutation: 96 entries in 0..95, `P[src] = dst` (00_scope.md R15, 10_state.md R27). That every
value occurs once is `Perm.Bijective` of Safety.lean, not part of the type. -/
abbrev Perm := Vector (Fin 96) 96

/-- The implementation mode (10_state.md R32, 00_scope.md R18). -/
inductive Mode where
  /-- table S-boxes and the branching bit permutation -/
  | fast
  /-- bitsliced S-box and the masked-merge bit permutation -/
  | hardened
  deriving DecidableEq, Repr, Inhabited

/-- The key-dependent registers and tables, all written by SETKEY at once (10_state.md R22, R23, R24,
R27, R28). -/
structure Material where
  /-- `RK[0..7]`, the round keys (R22) -/
  rk : Vector Block 8
  /-- `PS[0..7]`, the permutation seeds (R23) -/
  ps : Vector Seed 8
  /-- `POST`, the post-whitening block (R24) -/
  post : Block
  /-- `PERM[0..7]` (R27) -/
  perm : Vector Perm 8
  /-- `INV_PERM[0..7]` (R28) -/
  invPerm : Vector Perm 8
  deriving DecidableEq, Repr, Inhabited

end Sys2Proof
end

