-- ==== Sys2Proof/Config.lean ====
section
/-! DEFINITION. What a build fixes (00_scope.md R9) and the free values: contents the spec says the model
may hold but must prove nothing about (93_implementation_defined.md A11, A12), and one value that no rule
states (42_keyschedule.md R154, log entry 18). -/

namespace Sys2Proof

/-- The build parameters `HAS_FAST` and `DEFAULT_IMPL` (00_scope.md R9). They stand in State as constants
that nothing writes, so that every statement covers every build (log entry 2). -/
structure Build where
  /-- `HAS_FAST`: the Fast datapath is built -/
  hasFast : Bool
  /-- `DEFAULT_IMPL`: the mode after reset -/
  defaultImpl : Mode
  deriving DecidableEq, Repr

/-- The constraint of 00_scope.md R9: `DEFAULT_IMPL = Fast` only if `HAS_FAST = 1`. -/
def Build.wf (b : Build) : Bool := b.defaultImpl != .fast || b.hasFast

namespace Config

/-- The default build of 00_scope.md R9: `HAS_FAST = 1`, `DEFAULT_IMPL = Fast`. -/
def standardBuild : Build := { hasFast := true, defaultImpl := .fast }

/-- The Hardened-only build: `HAS_FAST = 0`, hence `DEFAULT_IMPL = Hardened` (00_scope.md R9). -/
def hardenedBuild : Build := { hasFast := false, defaultImpl := .hardened }

/-- `HAS_HARDENED`, fixed to 1 (00_scope.md R9). -/
def hasHardened : Bool := true

/-- FREE VALUE (log entry 3): what `RK`, `PS`, `POST`, `PERM`, `INV_PERM` contain while no key is installed,
one value per occasion. It has no body, so nothing can be proved of it. -/
opaque unheldMaterial : Nat → Material

/-- FREE VALUE (log entry 3): what `DATA_OUT` contains from reset to the first successful ENC or DEC. -/
opaque unheldBlock : Nat → Block

/-- FREE VALUE (DESIGN CHOICE, log entry 18): the 8 bytes `L8` of 42_keyschedule.md R154, as one `u64`, for a
bit length of 2^64 or more, which 8 bytes cannot hold and for which no rule states a value. -/
opaque unstatedBitLength : Nat → Word64

end Config

end Sys2Proof
end

