-- ==== Sys2Proof/Syntax.lean ====
section
/-! DEFINITION. The six host commands, the fields of a command byte, and the names under which the decoder
rejects a byte. -/

namespace Sys2Proof

/-- The host commands, one constructor per row of spec/opcode_table.json (30_encoding.md R82). KEY_IN and
DATA_IN are operand ports, not part of the command byte (R84). -/
inductive Instr where
  /-- NOP (45_commands.md R271) -/
  | nop
  /-- CFG m (R272): `m` is the requested mode, in the encoding of 10_state.md R32 (R84) -/
  | cfg (m : Mode)
  /-- SETKEY (R273) -/
  | setkey
  /-- ENC (R274) -/
  | enc
  /-- DEC (R275) -/
  | dec
  /-- PROBE (R276) -/
  | probe
  deriving DecidableEq, Repr

/-- The fields of format `C` (30_encoding.md R81). -/
structure CommandFields where
  /-- bits 7:4, the opcode -/
  op : BitVec 4
  /-- bits 3:1, reserved -/
  rsv : BitVec 3
  /-- bit 0, the mode operand of CFG -/
  m : BitVec 1
  deriving DecidableEq, Repr

/-- The three kinds of illegal encoding of 30_encoding.md R85. Each raises ILLEGAL_CMD. -/
inductive IllegalCommand where
  /-- `op` in 0x6..0xF -/
  | reservedOpcode
  /-- `rsv != 000` -/
  | reservedBits
  /-- `m = 1` with `op != 0x1` -/
  | modeBitOutsideCfg
  deriving DecidableEq, Repr

end Sys2Proof
end

