-- ==== Sys2Proof/WellFormed.lean ====
section
/-! DEFINITION. When the fields of a command byte form a legal command (30_encoding.md R81, R85). An `Instr`
needs no check of its own: its one operand is a `Mode`, and both modes are legal operands on every build
(a CFG FAST that the build cannot serve is a fault of the command, R272, not an illegal encoding). -/

namespace Sys2Proof

/-- The opcode is one of 0x0..0x5 (30_encoding.md R82). -/
def CommandFields.opAssigned (f : CommandFields) : Bool := f.op.toNat ≤ 5

/-- The reserved bits are 000 (30_encoding.md R81). -/
def CommandFields.rsvZero (f : CommandFields) : Bool := f.rsv == 0

/-- `m` is 0 in every command but CFG (30_encoding.md R81). -/
def CommandFields.modeBitOk (f : CommandFields) : Bool := f.op == 1 || f.m == 0

/-- A legal command: none of the three clauses of 30_encoding.md R85 holds. -/
def CommandFields.wf (f : CommandFields) : Bool := f.opAssigned && f.rsvZero && f.modeBitOk

end Sys2Proof
end

