-- ==== Sys2Proof/Decode.lean ====
section
/-! DEFINITION. The command decoder, total on all 256 bytes and rejecting by name, then the encoder
(30_encoding.md R81 to R85). -/

namespace Sys2Proof

/-- The fields of a command byte, `oooo rrr m` from the most significant bit (30_encoding.md R81). -/
def fieldsOf (b : Byte) : CommandFields :=
  { op := b.extractLsb' 4 4, rsv := b.extractLsb' 1 3, m := b.extractLsb' 0 1 }

/-- The command byte with given fields (30_encoding.md R81). -/
def byteOf (f : CommandFields) : Byte := f.op ++ f.rsv ++ f.m

/-- The mode a bit names: 0 = Fast, 1 = Hardened (10_state.md R32). -/
def modeOfBit (m : BitVec 1) : Mode := if m = 0 then .fast else .hardened

/-- The bit that names a mode: 0 = Fast, 1 = Hardened (10_state.md R32). -/
def modeBit : Mode → BitVec 1
  | .fast => 0
  | .hardened => 1

/-- The decoder: the three rejections of 30_encoding.md R85 by name, else the opcode map of R82. `MODE` plays
no part in it (R86). -/
def decode (b : Byte) : Except IllegalCommand Instr :=
  let f := fieldsOf b
  if f.opAssigned = false then .error .reservedOpcode
  else if f.rsvZero = false then .error .reservedBits
  else if f.modeBitOk = false then .error .modeBitOutsideCfg
  else
    match f.op.toNat with
    | 0 => .ok .nop
    | 1 => .ok (.cfg (modeOfBit f.m))
    | 2 => .ok .setkey
    | 3 => .ok .enc
    | 4 => .ok .dec
    | 5 => .ok .probe
    | _ => .error .reservedOpcode

/-- The fields of a command (30_encoding.md R81, R82). -/
def Instr.fields : Instr → CommandFields
  | .nop => { op := 0x0, rsv := 0, m := 0 }
  | .cfg m => { op := 0x1, rsv := 0, m := modeBit m }
  | .setkey => { op := 0x2, rsv := 0, m := 0 }
  | .enc => { op := 0x3, rsv := 0, m := 0 }
  | .dec => { op := 0x4, rsv := 0, m := 0 }
  | .probe => { op := 0x5, rsv := 0, m := 0 }

/-- A command is well formed when its fields are (30_encoding.md R85); every command is. -/
def Instr.wf (i : Instr) : Bool := i.fields.wf

/-- The encoder: the one byte of a command (30_encoding.md R80, R82). -/
def encode (i : Instr) : Byte := byteOf i.fields

/-- One row of the match-and-mask form of the decoder (30_encoding.md R83): `byte & mask == match`. -/
structure MatchRow where
  /-- the value the masked byte must have -/
  pattern : Byte
  /-- the bits that are compared -/
  mask : Byte
  deriving DecidableEq, Repr

/-- Whether a byte fits a row (30_encoding.md R83). -/
def MatchRow.fits (r : MatchRow) (b : Byte) : Bool := b &&& r.mask == r.pattern

/-- The six rows of 30_encoding.md R83, in the order NOP, CFG, SETKEY, ENC, DEC, PROBE. -/
def matchRows : List MatchRow :=
  [⟨0x00, 0xFF⟩, ⟨0x10, 0xFE⟩, ⟨0x20, 0xFF⟩, ⟨0x30, 0xFF⟩, ⟨0x40, 0xFF⟩, ⟨0x50, 0xFF⟩]

/-- The row a command belongs to, by its place in `matchRows`. -/
def rowOf : Instr → Nat
  | .nop => 0
  | .cfg _ => 1
  | .setkey => 2
  | .enc => 3
  | .dec => 4
  | .probe => 5

/-- What the decoder reads from the low `nbits` bits of `w`. A command is exactly one byte (30_encoding.md
R86), so a longer word whose upper bits are not zero is no command (log entry 17). -/
def decodeTableWord (nbits w : Nat) : Option Instr :=
  let v := w % 2 ^ nbits
  if v < 256 then (decode (BitVec.ofNat 8 v)).toOption else none

end Sys2Proof
end

