-- ==== Sys2Proof/Machine/State.lean ====
section
/-! DEFINITION. The state of the core and of its ports, as plain data, and the state after reset. -/

namespace Sys2Proof.Machine

/-- The value of `STATUS.ERR` (60_exceptions.md R302). Codes 4..15 are never written, so they have no name. -/
inductive ErrCode where
  /-- 0, OK: every successful command -/
  | ok
  /-- 1, ILLEGAL_CMD: raised by the decoder (R305) -/
  | illegalCmd
  /-- 2, NO_KEY: raised by ENC and DEC while `KEY_VALID = 0` (R303) -/
  | noKey
  /-- 3, FAST_IMPL_DISABLED: raised by CFG FAST on a build without the Fast datapath (R306) -/
  | fastImplDisabled
  deriving DecidableEq, Repr

/-- One host transaction: the values on the three input ports when it is issued (10_state.md R21,
30_encoding.md R80). -/
structure Transaction where
  /-- `CMD`, 8 bits -/
  cmd : Byte
  /-- `KEY_IN[0..11]` -/
  keyIn : Block
  /-- `DATA_IN[0..11]` -/
  dataIn : Block
  deriving DecidableEq, Repr

/-- What the host can do to the core (10_state.md R20, 70_reset_and_hazards.md R330, R331). -/
inductive HostEvent where
  /-- issue a command; it runs to completion -/
  | command (t : Transaction)
  /-- reset between two commands -/
  | reset
  /-- issue a command and reset the core while it executes: the command is abandoned (R331) -/
  | resetDuring (t : Transaction)
  deriving DecidableEq, Repr

/-- What the host can read between commands: the three output registers (10_state.md R20, R21). -/
structure HostView where
  /-- `STATUS`, 8 bits -/
  status : Byte
  /-- `INFO`, 8 bits -/
  info : Byte
  /-- `DATA_OUT[0..11]` -/
  dataOut : Block
  deriving DecidableEq, Repr

/-- The state. `STATUS` is not stored: its three fields are, and `State.status` of Flags.lean is the view
(10_state.md R34). The ROMs are constants of their units (R29, R30, R31). -/
structure State where
  /-- input port `CMD`: what the last issued transaction carried (10_state.md R21) -/
  cmd : Byte
  /-- input port `KEY_IN` (R21; log entry 11) -/
  keyIn : Block
  /-- input port `DATA_IN` (R21) -/
  dataIn : Block
  /-- output register `DATA_OUT` (R25) -/
  dataOut : Block
  /-- output register `INFO` (R35) -/
  info : Byte
  /-- `STATUS.ERR` (R34; log entry 6) -/
  err : ErrCode
  /-- `MODE` (R32) -/
  mode : Mode
  /-- `KEY_VALID` (R33) -/
  keyValid : Bool
  /-- `RK`, `PS`, `POST`, `PERM`, `INV_PERM` (R22, R23, R24, R27, R28) -/
  material : Material
  /-- the build parameters, constants of the machine (00_scope.md R9); the model's own place for them (log
  entry 2) -/
  build : Build
  /-- the model's own: what the host will do next, in order (20_memory.md R64); log entry 1 -/
  host : List HostEvent
  /-- the model's own: how many free values have been drawn; log entry 3 -/
  fresh : Nat
  deriving DecidableEq, Repr

/-- Why the machine would stop with a fault. The spec gives it no such way to stop: its faults are codes in
`STATUS.ERR` after which the core accepts the next command (60_exceptions.md R301), and every command
terminates (70_reset_and_hazards.md R344). The type is empty: nobody raises one (log entry 12). -/
inductive Fault where
  deriving DecidableEq, Repr

/-- Why the model would refuse a command. -/
inductive Refusal where
  /-- An arm of `exec` that has no meaning yet; safe (the model stops where the hardware goes on). No arm
  raises it: every command is modelled. -/
  | notModelled (mnemonic : String)
  deriving DecidableEq, Repr

/-- The state after reset of a core of build `b` (10_state.md R42): `MODE = DEFAULT_IMPL`, `KEY_VALID = 0`,
`ERR = 0`, `INFO = 0`; `DATA_OUT` and the derived material hold free values (the spec: no value; log entry 3);
the input ports carry zeros and the host has issued nothing (DESIGN CHOICE, log entries 1 and 4). -/
def State.resetOf (b : Build) : State :=
  { cmd := 0, keyIn := 0, dataIn := 0
    dataOut := Config.unheldBlock 0, info := 0, err := .ok
    mode := b.defaultImpl, keyValid := false, material := Config.unheldMaterial 0
    build := b, host := [], fresh := 1 }

/-- The state after reset of the default build (00_scope.md R9, 10_state.md R42). -/
def State.reset : State := State.resetOf Config.standardBuild

end Sys2Proof.Machine
end

