-- ==== Sys2Proof/Machine/Flags.lean ====
section
/-! DEFINITION. The host-visible registers as bytes: the fault code, `STATUS`, the capability constant `CAP`
that PROBE writes to `INFO`, and the view the host has of the core (10_state.md R34, R35). -/

namespace Sys2Proof.Machine

/-- The 4-bit fault code (60_exceptions.md R302). -/
def ErrCode.code : ErrCode → BitVec 4
  | .ok => 0
  | .illegalCmd => 1
  | .noKey => 2
  | .fastImplDisabled => 3

/-- `STATUS`: bits 3:0 `ERR`, 4 `KEY_VALID`, 5 `MODE`, 7:6 zero (10_state.md R34). -/
def State.status (s : State) : Byte :=
  (0 : BitVec 2) ++ modeBit s.mode ++ BitVec.ofBool s.keyValid ++ s.err.code

/-- `CAP`: bit 0 `HAS_FAST`, 1 `HAS_HARDENED`, 2 `DEFAULT_IMPL`, 7:3 zero (10_state.md R35). -/
def buildCap (b : Build) : Byte :=
  (0 : BitVec 5) ++ modeBit b.defaultImpl ++ BitVec.ofBool Config.hasHardened ++ BitVec.ofBool b.hasFast

/-- What the host reads between commands (10_state.md R20, R21). -/
def State.hostView (s : State) : HostView :=
  { status := s.status, info := s.info, dataOut := s.dataOut }

end Sys2Proof.Machine
end

