-- ==== Sys2Proof/Machine/Operands.lean ====
section
/-! DEFINITION. Operand assembly (30_encoding.md R84): which port a command reads. The mode operand of CFG is
the constructor's own argument, `m` of the command byte neither extended nor shifted. -/

namespace Sys2Proof.Machine

/-- The operand of SETKEY: the whole port `KEY_IN` (30_encoding.md R84). -/
def State.keyOperand (s : State) : Block := s.keyIn

/-- The operand of ENC and DEC: the whole port `DATA_IN` (30_encoding.md R84). -/
def State.dataOperand (s : State) : Block := s.dataIn

end Sys2Proof.Machine
end

