-- ==== Sys2Proof/Machine/BitIndex.lean ====
section
/-! DEFINITION. The state and bit-index unit (spec/40_bitindex.md): cube cells, the bits and bytes of a
Block, and the bit load and store. -/

namespace Sys2Proof.Machine

/-- A cube cell `(x,y,z)` (00_scope.md R15, 40_bitindex.md R100). -/
structure Cell where
  /-- 0..3 -/
  x : Fin 4
  /-- 0..3 -/
  y : Fin 4
  /-- 0..5 -/
  z : Fin 6
  deriving DecidableEq, Repr

/-- `idx_of(x,y,z) = 16·z + 4·y + x`, the z-slice layout (40_bitindex.md R101). -/
def idxOf (c : Cell) : Fin 96 := ⟨16 * c.z + 4 * c.y + c.x, by omega⟩

/-- The cell with a given index (40_bitindex.md R108). -/
def cellOf (i : Fin 96) : Cell :=
  { x := ⟨i % 4, by omega⟩, y := ⟨i % 16 / 4, by omega⟩, z := ⟨i / 16, by omega⟩ }

/-- `byte_index_of_bit(i) = 2·(i div 16) + ((i mod 16) div 8)` (40_bitindex.md R103). -/
def byteIndexOfBit (i : Fin 96) : Fin 12 := ⟨2 * (i / 16) + i % 16 / 8, by omega⟩

/-- `bit_offset_in_byte(i) = 7 − ((i mod 16) mod 8)` (40_bitindex.md R103). -/
def bitOffsetInByte (i : Fin 96) : Fin 8 := ⟨7 - i % 16 % 8, by omega⟩

/-- `B[k]`: byte k of a Block, `BUS[95 − 8k : 88 − 8k]` (00_scope.md R12, 10_state.md R21). -/
def blockByte (B : Block) (k : Fin 12) : Byte := B.extractLsb' (88 - 8 * k) 8

/-- The Block of 12 bytes, byte 0 first (10_state.md R21). -/
def blockOf (f : Fin 12 → Byte) : Block :=
  (List.finRange 12).foldl (fun acc k => (acc <<< 8) ||| (f k).setWidth 96) 0

/-- The 12 bytes of a Block in index order (20_memory.md R59). -/
def blockBytes (B : Block) : List Byte := (List.finRange 12).map (blockByte B)

/-- `B[k] <- v`: one byte written, no other changed. -/
def setBlockByte (B : Block) (k : Fin 12) (v : Byte) : Block :=
  (B &&& ~~~((BitVec.allOnes 8).setWidth 96 <<< (88 - 8 * k.val))) ||| (v.setWidth 96 <<< (88 - 8 * k.val))

/-- Byte j of a seed: `PS[r][j]` (10_state.md R23). -/
def seedByte (s : Seed) (j : Fin 8) : Byte := s.extractLsb' (56 - 8 * j) 8

/-- The seed of 8 bytes, byte 0 first (10_state.md R23). -/
def seedOf (f : Fin 8 → Byte) : Seed :=
  (List.finRange 8).foldl (fun acc j => (acc <<< 8) ||| (f j).setWidth 64) 0

/-- `get_bit(S, i)`: `(S[byte_index_of_bit(i)] >> bit_offset_in_byte(i)) & 1` (40_bitindex.md R106). -/
def getBit (S : Block) (i : Fin 96) : Bool :=
  ((blockByte S (byteIndexOfBit i) >>> (bitOffsetInByte i).val) &&& 1).getLsbD 0

/-- `set_bit(S, i, b)`: a read-modify-write of one byte (40_bitindex.md R107). -/
def setBit (S : Block) (i : Fin 96) (b : Bool) : Block :=
  let k := byteIndexOfBit i
  let o := (bitOffsetInByte i).val
  setBlockByte S k ((blockByte S k &&& ~~~((1 : Byte) <<< o)) ||| ((BitVec.ofBool b).setWidth 8 <<< o))

/-- Unpacking a Block: its 96 bits in index order (40_bitindex.md R110). -/
def unpack (S : Block) : List Bool := (List.finRange 96).map (getBit S)

/-- Packing 96 bits: 96 `set_bit` calls on a zero Block (40_bitindex.md R110). -/
def pack (bits : Fin 96 → Bool) : Block :=
  (List.finRange 96).foldl (fun S i => setBit S i (bits i)) 0

end Sys2Proof.Machine
end

