-- ==== Sys2Proof/Machine/KeySchedule.lean ====
section
/-! DEFINITION. The key schedule (spec/42_keyschedule.md): SHA-256, HMAC-SHA-256, HKDF, and the cut of its
output into round keys, seeds and post-whitening block (20_memory.md R55). Byte strings are lists. -/

namespace Sys2Proof.Machine

/-- `rotr32(x, n) = (x >> n) | (x << (32 − n))`, 0 < n < 32 (00_scope.md R14). -/
def rotr32 (x : Word32) (n : Nat) : Word32 := (x >>> n) ||| (x <<< (32 - n))

/-- The `u32` of 4 bytes, big-endian (00_scope.md R14). -/
def be32 (b0 b1 b2 b3 : Byte) : Word32 := b0 ++ b1 ++ b2 ++ b3

/-- The 4 bytes of a `u32`, big-endian (42_keyschedule.md R158). -/
def be32Bytes (w : Word32) : List Byte :=
  [w.extractLsb' 24 8, w.extractLsb' 16 8, w.extractLsb' 8 8, w.extractLsb' 0 8]

/-- The 8-byte big-endian encoding of a bit length, `L8` (42_keyschedule.md R154). DESIGN CHOICE (log entry
18): R150 admits a message of any length and no rule states `L8` from a bit length of 2^64 on; there it is a
free value. -/
def be64Bytes (n : Nat) : List Byte :=
  let w := if n < 2 ^ 64 then BitVec.ofNat 64 n else Config.unstatedBitLength n
  [w.extractLsb' 56 8, w.extractLsb' 48 8, w.extractLsb' 40 8, w.extractLsb' 32 8,
   w.extractLsb' 24 8, w.extractLsb' 16 8, w.extractLsb' 8 8, w.extractLsb' 0 8]

/-- The eight chaining or working words of SHA-256, `H[0..7]` or `a..h` (42_keyschedule.md R157). -/
structure HashWords where
  (a b c d e f g h : Word32)
  deriving DecidableEq, Repr

/-- `H0[0..7]` (42_keyschedule.md R152). -/
def shaH0 : HashWords :=
  ⟨0x6a09e667, 0xbb67ae85, 0x3c6ef372, 0xa54ff53a, 0x510e527f, 0x9b05688c, 0x1f83d9ab, 0x5be0cd19⟩

/-- `K[0..63]` (42_keyschedule.md R153). -/
def shaK : List Word32 :=
  [0x428a2f98, 0x71374491, 0xb5c0fbcf, 0xe9b5dba5, 0x3956c25b, 0x59f111f1, 0x923f82a4, 0xab1c5ed5] ++
  [0xd807aa98, 0x12835b01, 0x243185be, 0x550c7dc3, 0x72be5d74, 0x80deb1fe, 0x9bdc06a7, 0xc19bf174] ++
  [0xe49b69c1, 0xefbe4786, 0x0fc19dc6, 0x240ca1cc, 0x2de92c6f, 0x4a7484aa, 0x5cb0a9dc, 0x76f988da] ++
  [0x983e5152, 0xa831c66d, 0xb00327c8, 0xbf597fc7, 0xc6e00bf3, 0xd5a79147, 0x06ca6351, 0x14292967] ++
  [0x27b70a85, 0x2e1b2138, 0x4d2c6dfc, 0x53380d13, 0x650a7354, 0x766a0abb, 0x81c2c92e, 0x92722c85] ++
  [0xa2bfe8a1, 0xa81a664b, 0xc24b8b70, 0xc76c51a3, 0xd192e819, 0xd6990624, 0xf40e3585, 0x106aa070] ++
  [0x19a4c116, 0x1e376c08, 0x2748774c, 0x34b0bcb5, 0x391c0cb3, 0x4ed8aa4a, 0x5b9cca4f, 0x682e6ff3] ++
  [0x748f82ee, 0x78a5636f, 0x84c87814, 0x8cc70208, 0x90befffa, 0xa4506ceb, 0xbef9a3f7, 0xc67178f2]

/-- The least k of 42_keyschedule.md R154: `len + 1 + k + 8` is a multiple of 64. -/
def padZeros (len : Nat) : Nat := (119 - len % 64) % 64

/-- The padded message `M ‖ 0x80 ‖ 0x00^k ‖ L8` (42_keyschedule.md R154). -/
def shaPad (M : List Byte) : List Byte :=
  M ++ [0x80] ++ List.replicate (padZeros M.length) 0 ++ be64Bytes (8 * M.length)

/-- The first n 64-byte blocks of a byte string. -/
def shaBlocks : Nat → List Byte → List (List Byte)
  | 0, _ => []
  | n + 1, m => m.take 64 :: shaBlocks n (m.drop 64)

/-- `ssig0` (42_keyschedule.md R155). -/
def ssig0 (x : Word32) : Word32 := rotr32 x 7 ^^^ rotr32 x 18 ^^^ (x >>> 3)

/-- `ssig1` (42_keyschedule.md R155). -/
def ssig1 (x : Word32) : Word32 := rotr32 x 17 ^^^ rotr32 x 19 ^^^ (x >>> 10)

/-- `W[0..15]` of a block, big-endian (42_keyschedule.md R155). -/
def shaFirstWords (blk : List Byte) : List Word32 :=
  (List.range 16).map fun t =>
    be32 (blk.getD (4 * t) 0) (blk.getD (4 * t + 1) 0) (blk.getD (4 * t + 2) 0) (blk.getD (4 * t + 3) 0)

/-- n further words of the schedule (42_keyschedule.md R155). The words stand newest first, so `W[t−j]` is
entry j − 1. -/
def shaExtend : Nat → List Word32 → List Word32
  | 0, w => w
  | n + 1, w =>
    shaExtend n ((ssig1 (w.getD 1 0) + w.getD 6 0 + ssig0 (w.getD 14 0) + w.getD 15 0) :: w)

/-- The message schedule `W[0..63]` (42_keyschedule.md R155). -/
def shaSchedule (blk : List Byte) : List Word32 := (shaExtend 48 (shaFirstWords blk).reverse).reverse

/-- `Ch` (42_keyschedule.md R156). -/
def shaCh (e f g : Word32) : Word32 := (e &&& f) ^^^ (~~~e &&& g)

/-- `Maj` (42_keyschedule.md R156). -/
def shaMaj (a b c : Word32) : Word32 := (a &&& b) ^^^ (a &&& c) ^^^ (b &&& c)

/-- `bsig0` (42_keyschedule.md R156). -/
def bsig0 (a : Word32) : Word32 := rotr32 a 2 ^^^ rotr32 a 13 ^^^ rotr32 a 22

/-- `bsig1` (42_keyschedule.md R156). -/
def bsig1 (e : Word32) : Word32 := rotr32 e 6 ^^^ rotr32 e 11 ^^^ rotr32 e 25

/-- One round with constant `K[t]` and word `W[t]` (42_keyschedule.md R157). -/
def shaRound (s : HashWords) (kw : Word32 × Word32) : HashWords :=
  let t1 := s.h + bsig1 s.e + shaCh s.e s.f s.g + kw.1 + kw.2
  let t2 := bsig0 s.a + shaMaj s.a s.b s.c
  { a := t1 + t2, b := s.a, c := s.b, d := s.c, e := s.d + t1, f := s.e, g := s.f, h := s.g }

/-- The compression of one 64-byte block into the chaining value (42_keyschedule.md R157). -/
def shaCompress (H : HashWords) (blk : List Byte) : HashWords :=
  let r := (shaK.zip (shaSchedule blk)).foldl shaRound H
  { a := H.a + r.a, b := H.b + r.b, c := H.c + r.c, d := H.d + r.d
    e := H.e + r.e, f := H.f + r.f, g := H.g + r.g, h := H.h + r.h }

/-- The 32 digest bytes (42_keyschedule.md R158). -/
def shaDigest (H : HashWords) : List Byte :=
  be32Bytes H.a ++ be32Bytes H.b ++ be32Bytes H.c ++ be32Bytes H.d ++
  be32Bytes H.e ++ be32Bytes H.f ++ be32Bytes H.g ++ be32Bytes H.h

/-- `sha256(M)` (42_keyschedule.md R150). -/
def sha256 (M : List Byte) : List Byte :=
  let P := shaPad M
  shaDigest ((shaBlocks (P.length / 64) P).foldl shaCompress shaH0)

/-- The 64-byte `K0` of HMAC: a key longer than 64 bytes is hashed, then zeros fill (42_keyschedule.md R160). -/
def hmacKey (Kh : List Byte) : List Byte :=
  let K0 := if Kh.length ≤ 64 then Kh else sha256 Kh
  K0 ++ List.replicate (64 - K0.length) 0

/-- `hmac(Kh, M)`, with ipad 0x36 and opad 0x5C (42_keyschedule.md R160). -/
def hmac (Kh M : List Byte) : List Byte :=
  let K0 := hmacKey Kh
  sha256 (K0.map (· ^^^ 0x5C) ++ sha256 (K0.map (· ^^^ 0x36) ++ M))

/-- `SALT`: "StagedCube's-96-HKDF-V1" and 9 zero bytes (42_keyschedule.md R172). -/
def hkdfSalt : List Byte :=
  [0x53, 0x74, 0x61, 0x67, 0x65, 0x64, 0x43, 0x75, 0x62, 0x65, 0x27, 0x73, 0x2D, 0x39, 0x36, 0x2D] ++
  [0x48, 0x4B, 0x44, 0x46, 0x2D, 0x56, 0x31, 0x00, 0x00, 0x00, 0x00, 0x00, 0x00, 0x00, 0x00, 0x00]

/-- `INFO_STR`: "Cube96-RK-PS-Post-v1" (42_keyschedule.md R173). -/
def hkdfInfo : List Byte :=
  [0x43, 0x75, 0x62, 0x65, 0x39, 0x36, 0x2D, 0x52, 0x4B, 0x2D, 0x50, 0x53, 0x2D, 0x50, 0x6F, 0x73] ++
  [0x74, 0x2D, 0x76, 0x31]

/-- Extract: `PRK = hmac(SALT, key)` (42_keyschedule.md R165). -/
def hkdfExtract (key : List Byte) : List Byte := hmac hkdfSalt key

/-- `T(i) = hmac(PRK, T(i−1) ‖ INFO_STR ‖ byte(i))`, `T(0)` empty (42_keyschedule.md R166). -/
def hkdfT (prk : List Byte) : Nat → List Byte
  | 0 => []
  | i + 1 => hmac prk (hkdfT prk i ++ hkdfInfo ++ [BitVec.ofNat 8 (i + 1)])

/-- n output blocks after `T(i) = prev`: `T(i+1) ‖ ... ‖ T(i+n)`, each computed once from the one before
(42_keyschedule.md R166, R176). -/
def hkdfBlocks (prk : List Byte) : Nat → Nat → List Byte → List Byte
  | 0, _, _ => []
  | n + 1, i, prev =>
    let t := hmac prk (prev ++ hkdfInfo ++ [BitVec.ofNat 8 (i + 1)])
    t ++ hkdfBlocks prk n (i + 1) t

/-- `OKM`: the first 172 bytes of `T(1) ‖ ... ‖ T(6)` (42_keyschedule.md R167). -/
def hkdfOkm (key : List Byte) : List Byte := (hkdfBlocks (hkdfExtract key) 6 0 []).take 172

/-- The Block at offset o of a byte string (20_memory.md R55). -/
def blockAt (bytes : List Byte) (o : Nat) : Block := blockOf fun k => bytes.getD (o + k) 0

/-- The seed at offset o of a byte string (20_memory.md R55). -/
def seedAt (bytes : List Byte) (o : Nat) : Seed := seedOf fun j => bytes.getD (o + j) 0

/-- `RK`, `PS`, `POST`: what `derive_material` returns (42_keyschedule.md R176). -/
structure Derived where
  /-- `RK[0..7]` -/
  rk : Vector Block 8
  /-- `PS[0..7]` -/
  ps : Vector Seed 8
  /-- `POST` -/
  post : Block
  deriving DecidableEq, Repr

/-- The cut of `OKM`: round keys from 0, seeds from 96, post-whitening from 160 (20_memory.md R55). -/
def cutOkm (okm : List Byte) : Derived :=
  { rk := Vector.ofFn fun r : Fin 8 => blockAt okm (12 * r)
    ps := Vector.ofFn fun r : Fin 8 => seedAt okm (96 + 8 * r)
    post := blockAt okm 160 }

/-- `derive_material(key)` (42_keyschedule.md R176). -/
def deriveMaterial (key : Block) : Derived := cutOkm (hkdfOkm (blockBytes key))

end Sys2Proof.Machine
end

