-- ==== Sys2Proof/Machine/Permutation.lean ====
section
/-! DEFINITION. The permutation engine (spec/43_permutation.md): SplitMix64, the 36 primitives, composition
and inversion, the assembly of a round's permutation, and the two application circuits. -/

namespace Sys2Proof.Machine

/-- `next(s)`: the new generator state and one draw (43_permutation.md R191). -/
def splitMixNext (s : Word64) : Word64 × Word64 :=
  let s := s + 0x9E3779B97F4A7C15
  let z := (s ^^^ (s >>> 30)) * 0xBF58476D1CE4E5B9
  let z := (z ^^^ (z >>> 27)) * 0x94D049BB133111EB
  (s, z ^^^ (z >>> 31))

/-- The kinds of primitive move (43_permutation.md R195). Slices 4 and 5 have no row or column cycle, and
x = 3 and y = 3 have no z-shift. -/
inductive Primitive where
  /-- face rotation CW 90° of a slice (R196) -/
  | faceCw (z0 : Fin 6)
  /-- face rotation CCW 90° of a slice (R197) -/
  | faceCcw (z0 : Fin 6)
  /-- face rotation 180° of a slice (R198) -/
  | faceHalf (z0 : Fin 6)
  /-- row cycle up of a slice (R199) -/
  | rowUp (z0 : Fin 4)
  /-- row cycle down of a slice (R200) -/
  | rowDown (z0 : Fin 4)
  /-- column cycle right of a slice (R201) -/
  | colRight (z0 : Fin 4)
  /-- z-shift on fixed x (R202) -/
  | zShiftX (x0 : Fin 3)
  /-- z-shift on fixed y (R203) -/
  | zShiftY (y0 : Fin 3)
  deriving DecidableEq, Repr

/-- The primitive of index p, "in fixed index order" (43_permutation.md R195). -/
def primitiveOf (p : Fin 36) : Primitive :=
  if _ : p.val < 18 then
    let z0 : Fin 6 := ⟨p / 3, by omega⟩
    match p.val % 3 with
    | 0 => .faceCw z0
    | 1 => .faceCcw z0
    | _ => .faceHalf z0
  else if _ : p.val < 30 then
    let z0 : Fin 4 := ⟨(p - 18) / 3, by omega⟩
    match p.val % 3 with
    | 0 => .rowUp z0
    | 1 => .rowDown z0
    | _ => .colRight z0
  else if _ : p.val < 33 then .zShiftX ⟨p - 30, by omega⟩
  else .zShiftY ⟨p - 33, by omega⟩

/-- The coordinate map of a primitive (43_permutation.md R196 to R203). Coordinates are `Fin 4` and `Fin 6`,
whose `+` and `-` are the `& 3` and `mod 6` of the rules. -/
def primitiveMap (m : Primitive) (c : Cell) : Cell :=
  match m with
  | .faceCw z0 => if c.z = z0 then { c with x := 3 - c.y, y := c.x } else c
  | .faceCcw z0 => if c.z = z0 then { c with x := c.y, y := 3 - c.x } else c
  | .faceHalf z0 => if c.z = z0 then { c with x := 3 - c.x, y := 3 - c.y } else c
  | .rowUp z0 => if c.z.val = z0.val then { c with y := c.y + 1 } else c
  | .rowDown z0 => if c.z.val = z0.val then { c with y := c.y + 3 } else c
  | .colRight z0 => if c.z.val = z0.val then { c with x := c.x + 1 } else c
  | .zShiftX x0 => if c.x.val = x0.val then { c with z := c.z + 1 } else c
  | .zShiftY y0 => if c.y.val = y0.val then { c with z := c.z + 1 } else c

/-- Entry n of a list of entries; past its end there is none, and 0 stands for it. -/
def entryAt : List (Fin 96) → Nat → Fin 96
  | [], _ => 0
  | a :: _, 0 => a
  | _ :: l, n + 1 => entryAt l n

/-- `P[src]`: one entry of a table (20_memory.md R50), written so that Lean's kernel evaluates it fast;
`permAt_eq_getElem` says that it is the entry. The index is never past the end (R51; log entry 13). -/
def permAt (P : Perm) (i : Fin 96) : Fin 96 := entryAt P.toList i.val

/-- The table whose entry i is `f i`. -/
def permOf (f : Fin 96 → Fin 96) : Perm := ⟨((List.finRange 96).map f).toArray, by simp⟩

/-- The table of a primitive, `PRIM[p][idx_of(c)] = idx_of(f_p(c))` (43_permutation.md R195). -/
def primTable (m : Primitive) : Perm := permOf fun i => idxOf (primitiveMap m (cellOf i))

/-- The ROM `PRIM[0..35]` (10_state.md R30, 43_permutation.md R195). -/
def primRom (p : Fin 36) : Perm := primTable (primitiveOf p)

/-- The identity permutation `ID` (43_permutation.md R194). -/
def permId : Perm := permOf fun i => i

/-- `compose(A, B)[i] = B[A[i]]`, "apply A then B" (43_permutation.md R210): every entry of A is sent through
B (`compose_get`). -/
def compose (A B : Perm) : Perm := ⟨(A.toList.map (permAt B)).toArray, by simp⟩

/-- One write of the pass of `invert`: `Q[P[i]] <- i` (43_permutation.md R211). -/
def invertWrite (P : Perm) (Q : Perm) (i : Fin 96) : Perm :=
  Q.set (permAt P i).val i (permAt P i).isLt

/-- `invert(P)`: one pass over the sources 0..95 (43_permutation.md R211). What the table holds before the pass
plays no part when `P` is a bijection: every entry is written once (log entry 13). -/
def invert (P : Perm) : Perm := (List.finRange 96).foldl (invertWrite P) (Vector.replicate 96 0)

/-- `pick = d mod 36`, no rejection (43_permutation.md R214). -/
def pickOf (d : Word64) : Fin 36 := ⟨d.toNat % 36, Nat.mod_lt _ (by decide)⟩

/-- n further draws, each composed onto the accumulator (43_permutation.md R213). -/
def assemble : Nat → Word64 → Perm → Perm
  | 0, _, acc => acc
  | n + 1, s, acc =>
    let d := splitMixNext s
    assemble n d.1 (compose acc (primRom (pickOf d.2)))

/-- `round_perm(PSr)`: 12 draws from the seed, starting at the identity (43_permutation.md R192, R213). -/
def roundPerm (seed : Seed) : Perm := assemble 12 seed permId

/-- The first n picks from a generator state (43_permutation.md R213, R216). -/
def picksFrom : Nat → Word64 → List (Fin 36)
  | 0, _ => []
  | n + 1, s =>
    let d := splitMixNext s
    pickOf d.2 :: picksFrom n d.1

/-- All that SETKEY stores for a key: the derived material, and for each round the permutation of its seed and
the inverse (43_permutation.md R215, 45_commands.md R273). -/
def materialOf (key : Block) : Material :=
  let d := deriveMaterial key
  let perm := d.ps.map roundPerm
  { rk := d.rk, ps := d.ps, post := d.post, perm := perm, invPerm := perm.map invert }

/-- `apply_fast(P, S)`: the bits set in S are set at their destinations in a zero Block (43_permutation.md R220). -/
def applyFast (P : Perm) (S : Block) : Block :=
  (List.finRange 96).foldl (fun out src => if getBit S src then setBit out (permAt P src) true else out) 0

/-- `merge(byte, bit, bit_mask)`, with `mask = 0u − bit` at 8 bits (43_permutation.md R222). -/
def mergeByte (byte : Byte) (bit : Bool) (bitMask : Byte) : Byte :=
  let mask : Byte := 0 - (BitVec.ofBool bit).setWidth 8
  (byte &&& ~~~bitMask) ||| (mask &&& bitMask)

/-- One iteration of `apply_ct` (43_permutation.md R221). -/
def mergeBit (P : Perm) (S : Block) (out : Block) (src : Fin 96) : Block :=
  let dst := permAt P src
  let k := byteIndexOfBit dst
  setBlockByte out k (mergeByte (blockByte out k) (getBit S src) (1 <<< (bitOffsetInByte dst).val))

/-- `apply_ct(P, S)`: every bit is merged, set or not (43_permutation.md R221). -/
def applyCt (P : Perm) (S : Block) : Block := (List.finRange 96).foldl (mergeBit P S) 0

end Sys2Proof.Machine
end

