-- ==== Sys2Proof/Machine/Ops.lean ====
section
/-! DEFINITION. The named updates of the state and the two ends of a command: success, and raising a fault.
There is no trap, so raising a fault is the whole of taking an exception here, and there is nothing to return
from (60_exceptions.md R301, R309, R311). -/

namespace Sys2Proof.Machine

/-- `STATUS.ERR <- e` (10_state.md R34). -/
def State.setErr (e : ErrCode) (s : State) : State := { s with err := e }

/-- `MODE <- m` (10_state.md R32). -/
def State.setMode (m : Mode) (s : State) : State := { s with mode := m }

/-- `KEY_VALID <- 0`: the material holds no value from here on, so it becomes a free value (45_commands.md R272,
93_implementation_defined.md A11; log entry 3). -/
def State.dropKey (s : State) : State :=
  { s with keyValid := false, material := Config.unheldMaterial s.fresh, fresh := s.fresh + 1 }

/-- All derived material of a key stored at once, `KEY_VALID <- 1` (45_commands.md R273). -/
def State.installKey (key : Block) (s : State) : State :=
  { s with material := materialOf key, keyValid := true }

/-- `DATA_OUT <- B`, all 12 bytes at once (10_state.md R25). -/
def State.setDataOut (B : Block) (s : State) : State := { s with dataOut := B }

/-- `INFO <- v` (10_state.md R35). -/
def State.setInfo (v : Byte) (s : State) : State := { s with info := v }

/-- The input ports sampled when a command is issued (10_state.md R21, 70_reset_and_hazards.md R341). -/
def State.sample (t : Transaction) (s : State) : State :=
  { s with cmd := t.cmd, keyIn := t.keyIn, dataIn := t.dataIn }

/-- The reset event: the values of 10_state.md R42 on a core of this build. `DATA_OUT` and the material hold no
value, so they become free values (log entry 3); the ports and the host are not the core's to reset. -/
def State.takeReset (s : State) : State :=
  { s with
    mode := s.build.defaultImpl, keyValid := false, err := .ok, info := 0
    dataOut := Config.unheldBlock s.fresh, material := Config.unheldMaterial s.fresh
    fresh := s.fresh + 1 }

/-- The end of a command that succeeds: `STATUS.ERR <- 0` (45_commands.md R270 step 4). -/
def complete (s : State) : Host.Outcome State Fault Refusal := .next (s.setErr .ok)

/-- Raising a fault: `STATUS.ERR <- code` and nothing else; the core then accepts the next command
(60_exceptions.md R301, 45_commands.md R270 step 3). -/
def raiseFault (e : ErrCode) (s : State) : Host.Outcome State Fault Refusal := .next (s.setErr e)

end Sys2Proof.Machine
end

