-- ==== Sys2Proof/Machine/Sbox.lean ====
section
/-! DEFINITION. The AES S-box (spec/41_sbox.md): its algebraic definition, the two ROMs of the Fast path, and
the bitsliced constant-time circuit of the Hardened path. -/

namespace Sys2Proof.Machine

/-- `rotl8(x, n) = (x << n) | (x >> (8 − n))`, 0 < n < 8 (00_scope.md R14). -/
def rotl8 (x : Byte) (n : Nat) : Byte := (x <<< n) ||| (x >>> (8 - n))

/-- Multiplication by x in GF(2^8) modulo 0x11B (41_sbox.md R121). -/
def xtime (a : Byte) : Byte := if a.getLsbD 7 then (a <<< 1) ^^^ 0x1B else a <<< 1

/-- `xtime` applied j times (41_sbox.md R121). -/
def xtimes : Nat → Byte → Byte
  | 0, a => a
  | j + 1, a => xtime (xtimes j a)

/-- `gmul(a,b)`: the XOR of `xtime^j(a)` over the set bits j of b (41_sbox.md R121). -/
def gmul (a b : Byte) : Byte :=
  (List.range 8).foldl (fun p j => if b.getLsbD j then p ^^^ xtimes j a else p) 0

/-- The square of a byte in GF(2^8). -/
def gsquare (a : Byte) : Byte := gmul a a

/-- Inversion in GF(2^8), `inv(a) = a^254`, with `inv(0) = 0` (41_sbox.md R122: "any evaluation order"). Here
`a^254` is the product of `a^2, a^4, ..., a^128`. -/
def gfInv (a : Byte) : Byte :=
  let a2 := gsquare a
  let a4 := gsquare a2
  let a8 := gsquare a4
  let a16 := gsquare a8
  let a32 := gsquare a16
  let a64 := gsquare a32
  let a128 := gsquare a64
  gmul (gmul (gmul (gmul (gmul (gmul a2 a4) a8) a16) a32) a64) a128

/-- The affine map `A` (41_sbox.md R123). -/
def affine (v : Byte) : Byte := v ^^^ rotl8 v 1 ^^^ rotl8 v 2 ^^^ rotl8 v 3 ^^^ rotl8 v 4 ^^^ 0x63

/-- The inverse affine map `A⁻¹` (41_sbox.md R124). -/
def invAffine (s : Byte) : Byte := rotl8 s 1 ^^^ rotl8 s 3 ^^^ rotl8 s 6 ^^^ 0x05

/-- `S(a) = A(inv(a))`, the definition the ROM tabulates (41_sbox.md R120, R123). -/
def sboxOf (a : Byte) : Byte := affine (gfInv a)

/-- `S⁻¹(s) = inv(A⁻¹(s))`, the definition the inverse ROM tabulates (41_sbox.md R124). -/
def invSboxOf (s : Byte) : Byte := gfInv (invAffine s)

/-- The ROM `SBOX[0..255]` (41_sbox.md R123), one row of the printed table a line. -/
def sboxRom : List Byte :=
  [0x63, 0x7C, 0x77, 0x7B, 0xF2, 0x6B, 0x6F, 0xC5, 0x30, 0x01, 0x67, 0x2B, 0xFE, 0xD7, 0xAB, 0x76] ++
  [0xCA, 0x82, 0xC9, 0x7D, 0xFA, 0x59, 0x47, 0xF0, 0xAD, 0xD4, 0xA2, 0xAF, 0x9C, 0xA4, 0x72, 0xC0] ++
  [0xB7, 0xFD, 0x93, 0x26, 0x36, 0x3F, 0xF7, 0xCC, 0x34, 0xA5, 0xE5, 0xF1, 0x71, 0xD8, 0x31, 0x15] ++
  [0x04, 0xC7, 0x23, 0xC3, 0x18, 0x96, 0x05, 0x9A, 0x07, 0x12, 0x80, 0xE2, 0xEB, 0x27, 0xB2, 0x75] ++
  [0x09, 0x83, 0x2C, 0x1A, 0x1B, 0x6E, 0x5A, 0xA0, 0x52, 0x3B, 0xD6, 0xB3, 0x29, 0xE3, 0x2F, 0x84] ++
  [0x53, 0xD1, 0x00, 0xED, 0x20, 0xFC, 0xB1, 0x5B, 0x6A, 0xCB, 0xBE, 0x39, 0x4A, 0x4C, 0x58, 0xCF] ++
  [0xD0, 0xEF, 0xAA, 0xFB, 0x43, 0x4D, 0x33, 0x85, 0x45, 0xF9, 0x02, 0x7F, 0x50, 0x3C, 0x9F, 0xA8] ++
  [0x51, 0xA3, 0x40, 0x8F, 0x92, 0x9D, 0x38, 0xF5, 0xBC, 0xB6, 0xDA, 0x21, 0x10, 0xFF, 0xF3, 0xD2] ++
  [0xCD, 0x0C, 0x13, 0xEC, 0x5F, 0x97, 0x44, 0x17, 0xC4, 0xA7, 0x7E, 0x3D, 0x64, 0x5D, 0x19, 0x73] ++
  [0x60, 0x81, 0x4F, 0xDC, 0x22, 0x2A, 0x90, 0x88, 0x46, 0xEE, 0xB8, 0x14, 0xDE, 0x5E, 0x0B, 0xDB] ++
  [0xE0, 0x32, 0x3A, 0x0A, 0x49, 0x06, 0x24, 0x5C, 0xC2, 0xD3, 0xAC, 0x62, 0x91, 0x95, 0xE4, 0x79] ++
  [0xE7, 0xC8, 0x37, 0x6D, 0x8D, 0xD5, 0x4E, 0xA9, 0x6C, 0x56, 0xF4, 0xEA, 0x65, 0x7A, 0xAE, 0x08] ++
  [0xBA, 0x78, 0x25, 0x2E, 0x1C, 0xA6, 0xB4, 0xC6, 0xE8, 0xDD, 0x74, 0x1F, 0x4B, 0xBD, 0x8B, 0x8A] ++
  [0x70, 0x3E, 0xB5, 0x66, 0x48, 0x03, 0xF6, 0x0E, 0x61, 0x35, 0x57, 0xB9, 0x86, 0xC1, 0x1D, 0x9E] ++
  [0xE1, 0xF8, 0x98, 0x11, 0x69, 0xD9, 0x8E, 0x94, 0x9B, 0x1E, 0x87, 0xE9, 0xCE, 0x55, 0x28, 0xDF] ++
  [0x8C, 0xA1, 0x89, 0x0D, 0xBF, 0xE6, 0x42, 0x68, 0x41, 0x99, 0x2D, 0x0F, 0xB0, 0x54, 0xBB, 0x16]

/-- The ROM `INV_SBOX[0..255]` (41_sbox.md R124), one row of the printed table a line. -/
def invSboxRom : List Byte :=
  [0x52, 0x09, 0x6A, 0xD5, 0x30, 0x36, 0xA5, 0x38, 0xBF, 0x40, 0xA3, 0x9E, 0x81, 0xF3, 0xD7, 0xFB] ++
  [0x7C, 0xE3, 0x39, 0x82, 0x9B, 0x2F, 0xFF, 0x87, 0x34, 0x8E, 0x43, 0x44, 0xC4, 0xDE, 0xE9, 0xCB] ++
  [0x54, 0x7B, 0x94, 0x32, 0xA6, 0xC2, 0x23, 0x3D, 0xEE, 0x4C, 0x95, 0x0B, 0x42, 0xFA, 0xC3, 0x4E] ++
  [0x08, 0x2E, 0xA1, 0x66, 0x28, 0xD9, 0x24, 0xB2, 0x76, 0x5B, 0xA2, 0x49, 0x6D, 0x8B, 0xD1, 0x25] ++
  [0x72, 0xF8, 0xF6, 0x64, 0x86, 0x68, 0x98, 0x16, 0xD4, 0xA4, 0x5C, 0xCC, 0x5D, 0x65, 0xB6, 0x92] ++
  [0x6C, 0x70, 0x48, 0x50, 0xFD, 0xED, 0xB9, 0xDA, 0x5E, 0x15, 0x46, 0x57, 0xA7, 0x8D, 0x9D, 0x84] ++
  [0x90, 0xD8, 0xAB, 0x00, 0x8C, 0xBC, 0xD3, 0x0A, 0xF7, 0xE4, 0x58, 0x05, 0xB8, 0xB3, 0x45, 0x06] ++
  [0xD0, 0x2C, 0x1E, 0x8F, 0xCA, 0x3F, 0x0F, 0x02, 0xC1, 0xAF, 0xBD, 0x03, 0x01, 0x13, 0x8A, 0x6B] ++
  [0x3A, 0x91, 0x11, 0x41, 0x4F, 0x67, 0xDC, 0xEA, 0x97, 0xF2, 0xCF, 0xCE, 0xF0, 0xB4, 0xE6, 0x73] ++
  [0x96, 0xAC, 0x74, 0x22, 0xE7, 0xAD, 0x35, 0x85, 0xE2, 0xF9, 0x37, 0xE8, 0x1C, 0x75, 0xDF, 0x6E] ++
  [0x47, 0xF1, 0x1A, 0x71, 0x1D, 0x29, 0xC5, 0x89, 0x6F, 0xB7, 0x62, 0x0E, 0xAA, 0x18, 0xBE, 0x1B] ++
  [0xFC, 0x56, 0x3E, 0x4B, 0xC6, 0xD2, 0x79, 0x20, 0x9A, 0xDB, 0xC0, 0xFE, 0x78, 0xCD, 0x5A, 0xF4] ++
  [0x1F, 0xDD, 0xA8, 0x33, 0x88, 0x07, 0xC7, 0x31, 0xB1, 0x12, 0x10, 0x59, 0x27, 0x80, 0xEC, 0x5F] ++
  [0x60, 0x51, 0x7F, 0xA9, 0x19, 0xB5, 0x4A, 0x0D, 0x2D, 0xE5, 0x7A, 0x9F, 0x93, 0xC9, 0x9C, 0xEF] ++
  [0xA0, 0xE0, 0x3B, 0x4D, 0xAE, 0x2A, 0xF5, 0xB0, 0xC8, 0xEB, 0xBB, 0x3C, 0x83, 0x53, 0x99, 0x61] ++
  [0x17, 0x2B, 0x04, 0x7E, 0xBA, 0x77, 0xD6, 0x26, 0xE1, 0x69, 0x14, 0x63, 0x55, 0x21, 0x0C, 0x7D]

/-- `sub_fast(b) = SBOX[b]` (41_sbox.md R125). -/
def subFast (b : Byte) : Byte := sboxRom.getD b.toNat 0

/-- `inv_sub_fast(b) = INV_SBOX[b]` (41_sbox.md R125). -/
def invSubFast (b : Byte) : Byte := invSboxRom.getD b.toNat 0

/-- `spread(b)`: bit 0 copied to all eight bits by OR and shifts (41_sbox.md R127). -/
def spread (b : Byte) : Byte :=
  let m := b &&& 1
  let m := m ||| (m <<< 1)
  let m := m ||| (m <<< 2)
  m ||| (m <<< 4)

/-- `ct_xtime(a)` (41_sbox.md R127). -/
def ctXtime (a : Byte) : Byte := (a <<< 1) ^^^ (0x1B &&& spread (a >>> 7))

/-- `ct_gmul(a, b)`: eight iterations always, the running `a` multiplied by x after each (41_sbox.md R128). -/
def ctGmul (a b : Byte) : Byte :=
  ((List.range 8).foldl
    (fun (st : Byte × Byte) j => (st.1 ^^^ (st.2 &&& spread (b >>> j)), ctXtime st.2)) (0, a)).1

/-- `ct_inv(v) = v^254` by the fixed chain (41_sbox.md R129). -/
def ctInv (v : Byte) : Byte :=
  let sq := fun t => ctGmul t t
  let v2 := sq v
  let v3 := ctGmul v2 v
  let v6 := sq v3
  let v12 := sq v6
  let v15 := ctGmul v12 v3
  let v30 := sq v15
  let v60 := sq v30
  let v120 := sq v60
  let v126 := ctGmul v120 v6
  let v127 := ctGmul v126 v
  sq v127

/-- `ct_affine` (41_sbox.md R130). -/
def ctAffine (v : Byte) : Byte := v ^^^ rotl8 v 1 ^^^ rotl8 v 2 ^^^ rotl8 v 3 ^^^ rotl8 v 4 ^^^ 0x63

/-- `ct_inv_affine` (41_sbox.md R130). -/
def ctInvAffine (s : Byte) : Byte := rotl8 s 1 ^^^ rotl8 s 3 ^^^ rotl8 s 6 ^^^ 0x05

/-- `sub_ct(b) = ct_affine(ct_inv(b))` (41_sbox.md R131). -/
def subCt (b : Byte) : Byte := ctAffine (ctInv b)

/-- `inv_sub_ct(b) = ct_inv(ct_inv_affine(b))` (41_sbox.md R131). -/
def invSubCt (b : Byte) : Byte := ctInv (ctInvAffine b)

end Sys2Proof.Machine
end

