-- ==== Sys2Proof/Machine/RoundEngine.lean ====
section
/-! DEFINITION. The round engine and the Fast / Hardened dispatch (spec/44_round_engine.md). The working state
`S` is a local value (10_state.md R26, R38). -/

namespace Sys2Proof.Machine

/-- AddRoundKey `ark(S, r)`: the twelve byte XORs at once (44_round_engine.md R241). -/
def addRoundKey (m : Material) (r : Fin 8) (S : Block) : Block := S ^^^ m.rk[r]

/-- AddPostWhitening `apw(S)` (44_round_engine.md R244). -/
def addPostWhitening (m : Material) (S : Block) : Block := S ^^^ m.post

/-- The same byte function on each of the 12 lanes (44_round_engine.md R242). -/
def mapBytes (f : Byte → Byte) (S : Block) : Block := blockOf fun k => f (blockByte S k)

/-- The byte substitution of a mode (44_round_engine.md R242, R250). -/
def subByte : Mode → Byte → Byte
  | .fast => subFast
  | .hardened => subCt

/-- The inverse byte substitution of a mode (44_round_engine.md R242, R250). -/
def invSubByte : Mode → Byte → Byte
  | .fast => invSubFast
  | .hardened => invSubCt

/-- The permutation circuit of a mode (44_round_engine.md R243, R250). -/
def applyPerm : Mode → Perm → Block → Block
  | .fast => applyFast
  | .hardened => applyCt

/-- SubBytes `sub(S)` (44_round_engine.md R242). -/
def subBytes (md : Mode) (S : Block) : Block := mapBytes (subByte md) S

/-- Inverse SubBytes `inv_sub(S)` (44_round_engine.md R242). -/
def invSubBytes (md : Mode) (S : Block) : Block := mapBytes (invSubByte md) S

/-- Permute `permute(S, r)` (44_round_engine.md R243). -/
def permuteRound (md : Mode) (m : Material) (r : Fin 8) (S : Block) : Block := applyPerm md m.perm[r] S

/-- Inverse Permute `inv_permute(S, r)` (44_round_engine.md R243). -/
def invPermuteRound (md : Mode) (m : Material) (r : Fin 8) (S : Block) : Block := applyPerm md m.invPerm[r] S

/-- Round r of encryption: AddRoundKey, SubBytes, Permute (44_round_engine.md R240, R246). -/
def encRound (md : Mode) (m : Material) (S : Block) (r : Fin 8) : Block :=
  permuteRound md m r (subBytes md (addRoundKey m r S))

/-- Round r of decryption: inverse Permute, inverse SubBytes, AddRoundKey (44_round_engine.md R247). -/
def decRound (md : Mode) (m : Material) (S : Block) (r : Fin 8) : Block :=
  addRoundKey m r (invSubBytes md (invPermuteRound md m r S))

/-- `encrypt(B)`: rounds 0, 1, ..., 7, then AddPostWhitening (44_round_engine.md R246). -/
def encryptBlock (md : Mode) (m : Material) (B : Block) : Block :=
  addPostWhitening m ((List.finRange 8).foldl (encRound md m) B)

/-- `decrypt(B)`: AddPostWhitening, then rounds 7, 6, ..., 0 (44_round_engine.md R247). -/
def decryptBlock (md : Mode) (m : Material) (B : Block) : Block :=
  (List.finRange 8).reverse.foldl (decRound md m) (addPostWhitening m B)

end Sys2Proof.Machine
end

