-- ==== Sys2Proof/Machine/Commands.lean ====
section
/-! DEFINITION. The meanings of the six host commands (spec/45_commands.md). Each runs on a state whose ports
carry the transaction that issued it. -/

namespace Sys2Proof.Machine

/-- NOP: `STATUS.ERR <- 0` (45_commands.md R271). -/
def execNop (s : State) : Host.Outcome State Fault Refusal := complete s

/-- CFG m: FAST_IMPL_DISABLED when Fast is asked of a build without it; else the mode is set and the key is
dropped, also when the mode does not change (45_commands.md R272). -/
def execCfg (m : Mode) (s : State) : Host.Outcome State Fault Refusal :=
  if m = .fast ∧ s.build.hasFast = false then raiseFault .fastImplDisabled s
  else complete (s.setMode m).dropKey

/-- SETKEY: the material of `KEY_IN` is derived and stored; never a fault (45_commands.md R273). -/
def execSetkey (s : State) : Host.Outcome State Fault Refusal :=
  complete (s.installKey s.keyOperand)

/-- ENC: NO_KEY while no key is installed; else `DATA_OUT <- encrypt(DATA_IN)` on the datapath of `MODE`
(45_commands.md R274). -/
def execEnc (s : State) : Host.Outcome State Fault Refusal :=
  if s.keyValid = false then raiseFault .noKey s
  else complete (s.setDataOut (encryptBlock s.mode s.material s.dataOperand))

/-- DEC: NO_KEY while no key is installed; else `DATA_OUT <- decrypt(DATA_IN)` on the datapath of `MODE`
(45_commands.md R275). -/
def execDec (s : State) : Host.Outcome State Fault Refusal :=
  if s.keyValid = false then raiseFault .noKey s
  else complete (s.setDataOut (decryptBlock s.mode s.material s.dataOperand))

/-- PROBE: `INFO <- CAP` (45_commands.md R276). -/
def execProbe (s : State) : Host.Outcome State Fault Refusal := complete (s.setInfo (buildCap s.build))

end Sys2Proof.Machine
end

