-- ==== Sys2Proof/Machine/Dispatch.lean ====
section
/-! DEFINITION. One arm per command (45_commands.md R270 to R276). -/

namespace Sys2Proof.Machine

def exec (i : Instr) (s : State) : Host.Outcome State Fault Refusal :=
  match i with
  | .nop => Sys2Proof.Machine.execNop s
  | .cfg m => Sys2Proof.Machine.execCfg m s
  | .setkey => Sys2Proof.Machine.execSetkey s
  | .enc => Sys2Proof.Machine.execEnc s
  | .dec => Sys2Proof.Machine.execDec s
  | .probe => Sys2Proof.Machine.execProbe s

end Sys2Proof.Machine
end

