-- ==== Sys2Proof/Machine/Events.lean ====
section
/-! DEFINITION. What one event of the host does to the core: a command, a reset, a reset during a command. -/

namespace Sys2Proof.Machine

/-- The command on `CMD` decoded and executed; an illegal byte raises ILLEGAL_CMD (45_commands.md R270,
60_exceptions.md R305). -/
def runCommand (s : State) : Host.Outcome State Fault Refusal :=
  match decode s.cmd with
  | .ok i => exec i s
  | .error _ => raiseFault .illegalCmd s

/-- One event (10_state.md R20, R21; 70_reset_and_hazards.md R330). A command cut short by a reset leaves
exactly the reset state (R331); its transaction stays on the input ports, which are the host's (log entry 8). -/
def runEvent (e : HostEvent) (s : State) : Host.Outcome State Fault Refusal :=
  match e with
  | .command t => runCommand (s.sample t)
  | .reset => .next s.takeReset
  | .resetDuring t => .next (s.sample t).takeReset

/-- The command byte in the low `nbits` bits of `w`: a command is one byte (30_encoding.md R86). -/
def commandByte (nbits w : Nat) : Byte := BitVec.ofNat 8 (w % 2 ^ nbits)

end Sys2Proof.Machine
end

