-- ==== Sys2Proof/Machine/Step.lean ====
section
/-! DEFINITION. One step: the next thing the host does. -/

namespace Sys2Proof.Machine

/-- One step takes the host's next event, in issue order (20_memory.md R64). With none the core is idle
(10_state.md R20) and the state stays as it is (log entry 1). -/
def step (s : State) : Host.Outcome State Fault Refusal :=
  match s.host with
  | [] => .next s
  | e :: rest => runEvent e { s with host := rest }

/-- The state whose host issues the given command byte next, with the operand ports as they stand. The core
fetches no instructions (10_state.md R40): the host presents them (log entry 5). -/
def State.withFetchWord (s : State) (nbits w : Nat) : State :=
  { s with
    host := .command { cmd := commandByte nbits w, keyIn := s.keyIn, dataIn := s.dataIn } :: s.host }

end Sys2Proof.Machine
end

