-- ==== Sys2Proof/Machine/TextForm.lean ====
section
/-! DEFINITION. The textual form of host events, one command per line (30_encoding.md R87, R88). A line is a
list of characters. No command reads this form; it is how the spec writes programs down. The spec
gives the lines by example: how blanks separate words is the model's choice (log entry 9). -/

namespace Sys2Proof.Machine

/-- The words of a line, split at spaces; `w` is the word being read, last character first. -/
def lineWords : List Char → List Char → List (List Char)
  | [], w => if w.isEmpty then [] else [w.reverse]
  | c :: cs, w =>
    if c = ' ' then if w.isEmpty then lineWords cs [] else w.reverse :: lineWords cs []
    else lineWords cs (c :: w)

/-- The value of a hex digit, case-insensitive (30_encoding.md R87). -/
def hexDigit (c : Char) : Option Nat :=
  let n := c.toNat
  if 48 ≤ n ∧ n ≤ 57 then some (n - 48)
  else if 65 ≤ n ∧ n ≤ 70 then some (n - 55)
  else if 97 ≤ n ∧ n ≤ 102 then some (n - 87)
  else none

/-- The number a string of hex digits writes, high digit first, after the digits read so far. -/
def hexValue : List Char → Nat → Option Nat
  | [], acc => some acc
  | c :: cs, acc =>
    match hexDigit c with
    | some d => hexValue cs (16 * acc + d)
    | none => none

/-- A Block written as exactly 24 hex digits, byte 0 first (20_memory.md R59, 30_encoding.md R87). -/
def hexBlock (w : List Char) : Option Block :=
  if w.length = 24 then (hexValue w 0).map (BitVec.ofNat 96) else none

/-- `FAST` or `HARD` (30_encoding.md R87). -/
def textMode (w : List Char) : Option Mode :=
  if w = ['F', 'A', 'S', 'T'] then some .fast
  else if w = ['H', 'A', 'R', 'D'] then some .hardened
  else none

/-- The transaction of a command with given operand ports. -/
def transactionOf (i : Instr) (key data : Block) : HostEvent :=
  .command { cmd := encode i, keyIn := key, dataIn := data }

/-- The event a line writes. A port the line does not name carries what it carried before, given here as `key`
and `data` (30_encoding.md R84: a command ignores it). `RESET` is the reset event and `NEW` is CFG (R88);
from `;` on a line is comment (R87). -/
def textEvent (key data : Block) (line : List Char) : Option HostEvent :=
  match lineWords (line.takeWhile (· ≠ ';')) [] with
  | [w] =>
    if w = ['N', 'O', 'P'] then some (transactionOf .nop key data)
    else if w = ['P', 'R', 'O', 'B', 'E'] then some (transactionOf .probe key data)
    else if w = ['R', 'E', 'S', 'E', 'T'] then some .reset
    else none
  | [w, a] =>
    if w = ['C', 'F', 'G'] ∨ w = ['N', 'E', 'W'] then
      (textMode a).map fun m => transactionOf (.cfg m) key data
    else if w = ['S', 'E', 'T', 'K', 'E', 'Y'] then
      (hexBlock a).map fun B => transactionOf .setkey B data
    else if w = ['E', 'N', 'C'] then (hexBlock a).map fun B => transactionOf .enc key B
    else if w = ['D', 'E', 'C'] then (hexBlock a).map fun B => transactionOf .dec key B
    else none
  | _ => none

end Sys2Proof.Machine
end

