-- ==== Sys2Proof/Safety.lean ====
section
/-! DEFINITION. What holds of a core at every command boundary, in the terms the statements use. -/

namespace Sys2Proof.Machine

/-- A Permutation is a bijection on 0..95 (00_scope.md R15, 43_permutation.md R194). -/
def PermBijective (P : Perm) : Prop := Function.Bijective (permAt P)

/-- While `KEY_VALID = 1` the key-dependent registers hold the material of one key (10_state.md R36). -/
def HoldsKey (s : State) : Prop := s.keyValid = true → ∃ key : Block, s.material = materialOf key

/-- What every command and every reset keeps. -/
structure Safe (s : State) : Prop where
  /-- `DEFAULT_IMPL = Fast` only if `HAS_FAST = 1` (00_scope.md R9) -/
  build : s.build.wf = true
  /-- `MODE = 0` only if `HAS_FAST = 1` (10_state.md R32) -/
  mode : s.mode = .fast → s.build.hasFast = true
  /-- the invariant of 10_state.md R36 -/
  key : HoldsKey s
  /-- NO_KEY is reported only unkeyed (95_test_vectors.md section 8, 60_exceptions.md R303) -/
  noKey : s.err = .noKey → s.keyValid = false
  /-- FAST_IMPL_DISABLED is reported only on a build without Fast (60_exceptions.md R306) -/
  noFast : s.err = .fastImplDisabled → s.build.hasFast = false
  /-- `INFO` is 0 until PROBE, then the constant `CAP` (10_state.md R35, R42) -/
  info : s.info = 0 ∨ s.info = buildCap s.build

/-- A step that completes: the machine goes on. -/
def StepCompletes (s : State) : Prop := ∃ t, step s = .next t

end Sys2Proof.Machine
end

