-- ==== Sys2Proof/Certificates/Slice0/Obligations.lean ====
section
/-! DEFINITION. The statements for the provers. None is proved here. -/

open Sys2Proof Sys2Proof.Machine

/-- The seven legal command bytes (30_encoding.md R83). -/
def Sys2Proof.Certificates.legalBytes : List Byte := [0x00, 0x10, 0x11, 0x20, 0x30, 0x40, 0x50]

/-- The source's key `000102030405060708090A0B` (95_test_vectors.md section 1). -/
def Sys2Proof.Certificates.sourceKey : Block := 0x000102030405060708090A0B

/-- The bytes of a number, n of them, most significant first: hex strings of the spec as byte strings. -/
def Sys2Proof.Certificates.hexBytes (n v : Nat) : List Byte :=
  (List.range n).map fun j => BitVec.ofNat 8 (v / 2 ^ (8 * (n - 1 - j)))

/-- Where a cycle sends an index, if the index is on it: `(a b c d)` sends a to b, ..., d to a
(43_permutation.md R205). -/
def Sys2Proof.Certificates.cycleNext (first : Nat) : List Nat → Nat → Option Nat
  | [], _ => none
  | [last], i => if i = last then some first else none
  | a :: b :: rest, i =>
    if i = a then some b else Sys2Proof.Certificates.cycleNext first (b :: rest) i

/-- The value at i of the permutation written by cycles, each number raised by `off`; an index on no cycle is
fixed (43_permutation.md R205). -/
def Sys2Proof.Certificates.cycleValue (off : Nat) (cycles : List (List Nat)) (i : Nat) : Nat :=
  (cycles.findSome? fun c =>
    Sys2Proof.Certificates.cycleNext (c.headD 0 + off) (c.map (· + off)) i).getD i

/-- A table is the permutation written by cycles. -/
def Sys2Proof.Certificates.HasCycles (P : Perm) (off : Nat) (cycles : List (List Nat)) : Prop :=
  ∀ i : Fin 96, (permAt P i).val = Sys2Proof.Certificates.cycleValue off cycles i.val

/-- Character j of a word is the hex digit of a value, in upper case or in lower case (30_encoding.md R87). -/
def Sys2Proof.Certificates.WritesDigit (w : List Char) (j v : Nat) : Prop :=
  w[j]? = ['0', '1', '2', '3', '4', '5', '6', '7', '8', '9', 'A', 'B', 'C', 'D', 'E', 'F'][v]? ∨
  w[j]? = ['0', '1', '2', '3', '4', '5', '6', '7', '8', '9', 'a', 'b', 'c', 'd', 'e', 'f'][v]?

/-- A word writes a Block: its 24 hex digits, byte 0 first, high nibble first, each digit in either case
(20_memory.md R59, 30_encoding.md R87). -/
def Sys2Proof.Certificates.WritesBlock (B : Block) (w : List Char) : Prop :=
  w.length = 24 ∧ ∀ k : Fin 12,
    Sys2Proof.Certificates.WritesDigit w (2 * k.val) ((blockByte B k).toNat / 16) ∧
    Sys2Proof.Certificates.WritesDigit w (2 * k.val + 1) ((blockByte B k).toNat % 16)

open Sys2Proof.Certificates

/-! ### Encoding -/

/-- 30_encoding.md sections 1 and 2: every command is well formed and decoding its byte gives it back. -/
def Obligations.DecodeEncodeRoundTrip : Prop :=
  ∀ i : Instr, i.wf = true ∧ decode (encode i) = .ok i

/-- 30_encoding.md sections 1 and 2: a byte that decodes is the byte of the command it decodes to. -/
def Obligations.EncodeDecodeRoundTrip : Prop :=
  ∀ (b : Byte) (i : Instr), decode b = .ok i → encode i = b

/-- 30_encoding.md R83: the decoder is the match-and-mask table, seven bytes are legal, the other 249 are not. -/
def Obligations.DecoderFollowsMaskTable : Prop :=
  matchRows = [⟨0x00, 0xFF⟩, ⟨0x10, 0xFE⟩, ⟨0x20, 0xFF⟩, ⟨0x30, 0xFF⟩, ⟨0x40, 0xFF⟩, ⟨0x50, 0xFF⟩] ∧
  (∀ (r : MatchRow) (b : Byte), r.fits b = true ↔ b &&& r.mask = r.pattern) ∧
  (∀ (b : Byte) (i : Instr), decode b = .ok i →
    ∀ (k : Nat) (r : MatchRow), matchRows[k]? = some r → (r.fits b = true ↔ k = rowOf i)) ∧
  (∀ b : Byte, (∃ i, decode b = .ok i) ↔ ∃ r ∈ matchRows, r.fits b = true) ∧
  (∀ b : Byte, (∃ i, decode b = .ok i) ↔ b ∈ legalBytes) ∧
  ((List.range 256).filter fun n => (decode (BitVec.ofNat 8 n)).toOption.isNone).length = 249

/-- 30_encoding.md R85: which bytes are illegal, that each raises ILLEGAL_CMD and changes nothing else, and
that no byte behaves as another command's. -/
def Obligations.IllegalBytesRefused : Prop :=
  (∀ b : Byte, (∃ e, decode b = .error e) ↔
    (6 ≤ b.toNat / 16 ∨ b.toNat / 2 % 8 ≠ 0 ∨ (b.toNat % 2 = 1 ∧ b.toNat / 16 ≠ 1))) ∧
  (∀ (s : State) (e : IllegalCommand), decode s.cmd = .error e →
    runCommand s = .next { s with err := .illegalCmd }) ∧
  ErrCode.illegalCmd.code = 1 ∧
  (∀ (b c : Byte) (i : Instr), decode b = .ok i → decode c = .ok i → b = c)

/-- 30_encoding.md section 2: the printed command bytes, and samples of illegal ones, decode as printed. -/
def Obligations.PrintedBytesDecode : Prop :=
  decode 0x00 = .ok .nop ∧ decode 0x10 = .ok (.cfg .fast) ∧ decode 0x11 = .ok (.cfg .hardened) ∧
  decode 0x20 = .ok .setkey ∧ decode 0x30 = .ok .enc ∧ decode 0x40 = .ok .dec ∧
  decode 0x50 = .ok .probe ∧ decode 0x01 = .error .modeBitOutsideCfg ∧
  decode 0x12 = .error .reservedBits ∧ decode 0x60 = .error .reservedOpcode ∧
  decode 0xFF = .error .reservedOpcode

/-! ### Steps and resets -/

/-- 30_encoding.md section 1 and 10_state.md section 1: a step whose host issues a legal command samples the
three ports, takes the event off the host's list (the model's own, log entry 1) and runs that command. -/
def Obligations.StepRunsDecodedCommand : Prop :=
  ∀ (s : State) (t : Transaction) (rest : List HostEvent) (i : Instr),
    s.host = .command t :: rest → decode t.cmd = .ok i →
    step s = exec i { s with cmd := t.cmd, keyIn := t.keyIn, dataIn := t.dataIn, host := rest }

/-- 60_exceptions.md R305: a step whose host issues any byte outside the seven legal ones raises ILLEGAL_CMD
and changes nothing else of the core; which bytes those are. The list of host events, from which the step takes
one, is the model's own (log entry 1). -/
def Obligations.StepRaisesIllegalCommand : Prop :=
  (∀ b : Byte, b ∉ ([0x00, 0x10, 0x11, 0x20, 0x30, 0x40, 0x50] : List Byte) ↔
    (6 ≤ b.toNat / 16 ∨ b.toNat / 2 % 8 ≠ 0 ∨ (b.toNat % 2 = 1 ∧ b.toNat / 16 ≠ 1))) ∧
  ErrCode.illegalCmd.code = 1 ∧
  ∀ (s : State) (t : Transaction) (rest : List HostEvent),
    s.host = .command t :: rest → t.cmd ∉ ([0x00, 0x10, 0x11, 0x20, 0x30, 0x40, 0x50] : List Byte) →
    step s = .next { s with
      cmd := t.cmd, keyIn := t.keyIn, dataIn := t.dataIn, host := rest, err := .illegalCmd }

/-- 60_exceptions.md R303, R306: a step whose host issues ENC or DEC with no key installed raises NO_KEY, and
one whose host issues CFG FAST on a build without the Fast datapath raises FAST_IMPL_DISABLED; nothing else of
the core changes. The core is unkeyed after every reset and after every CFG that succeeds. -/
def Obligations.StepRaisesCommandFaults : Prop :=
  (∀ (s : State) (t : Transaction) (rest : List HostEvent),
    s.host = .command t :: rest → t.cmd = 0x30 ∨ t.cmd = 0x40 → s.keyValid = false →
    step s = .next { s with
      cmd := t.cmd, keyIn := t.keyIn, dataIn := t.dataIn, host := rest, err := .noKey }) ∧
  (∀ (s : State) (t : Transaction) (rest : List HostEvent),
    s.host = .command t :: rest → t.cmd = 0x10 → s.build.hasFast = false →
    step s = .next { s with
      cmd := t.cmd, keyIn := t.keyIn, dataIn := t.dataIn, host := rest, err := .fastImplDisabled }) ∧
  ErrCode.noKey.code = 2 ∧ ErrCode.fastImplDisabled.code = 3 ∧
  (∀ b : Build, (State.resetOf b).keyValid = false) ∧
  (∀ s : State, s.takeReset.keyValid = false) ∧
  (∀ (s t : State) (m : Mode), exec (.cfg m) s = .next t → t.err = .ok → t.keyValid = false)

/-- The model's choice, log entry 1 (10_state.md section 1: the core is idle between commands): a step with
nothing from the host leaves the state as it is. -/
def Obligations.IdleStepKeepsState : Prop :=
  ∀ s : State, s.host = [] → step s = .next s

/-- 10_state.md R42: what the state after reset holds, for every build and after a reset event at any time,
and that ENC and DEC then fault. -/
def Obligations.ResetValues : Prop :=
  (∀ b : Build, (State.resetOf b).mode = b.defaultImpl ∧ (State.resetOf b).keyValid = false ∧
    (State.resetOf b).err = .ok ∧ (State.resetOf b).info = 0 ∧
    (State.resetOf b).status = (modeBit b.defaultImpl).setWidth 8 <<< 5) ∧
  (∀ (s : State) (rest : List HostEvent), s.host = .reset :: rest →
    ∃ t, step s = .next t ∧ t.mode = s.build.defaultImpl ∧ t.keyValid = false ∧ t.err = .ok ∧
      t.info = 0 ∧ t.status = (modeBit s.build.defaultImpl).setWidth 8 <<< 5 ∧ t.build = s.build) ∧
  (∀ s : State, s.keyValid = false → exec .enc s = .next { s with err := .noKey } ∧
    exec .dec s = .next { s with err := .noKey })

/-- 70_reset_and_hazards.md section 1: a reset during a command leaves exactly what the same reset leaves
between commands. That the input ports, which are the host's, then carry the abandoned transaction, and that a
reset between commands leaves them alone, is the model's choice (log entries 4 and 8), and the list of events is
the model's own (log entry 1). -/
def Obligations.ResetAbandonsCommand : Prop :=
  ∀ (s : State) (t : Transaction) (rest : List HostEvent),
    ∃ u, step { s with host := .reset :: rest } = .next u ∧
      u.cmd = s.cmd ∧ u.keyIn = s.keyIn ∧ u.dataIn = s.dataIn ∧ u.host = rest ∧
      step { s with host := .resetDuring t :: rest } =
        .next { u with cmd := t.cmd, keyIn := t.keyIn, dataIn := t.dataIn }

/-! ### The six commands -/

/-- 45_commands.md R271. -/
def Obligations.NopClearsError : Prop :=
  encode .nop = 0x00 ∧
  (∀ s : State, exec .nop s = .next { s with err := .ok }) ∧
  (∀ s : State, s.mode = .hardened → s.keyValid = false → s.err = .noKey →
    s.status = 0x22 ∧ ∃ t, exec .nop s = .next t ∧ t.status = 0x20)

/-- 45_commands.md R272. The material after a CFG that succeeds is whatever the free value is (log entry 3):
the statement holds for every value of it. -/
def Obligations.CfgSelectsModeDropsKey : Prop :=
  encode (.cfg .fast) = 0x10 ∧ encode (.cfg .hardened) = 0x11 ∧
  (∀ s : State, s.build.hasFast = false → exec (.cfg .fast) s = .next { s with err := .fastImplDisabled }) ∧
  (∀ (s : State) (m : Mode), (m = .fast → s.build.hasFast = true) →
    ∃ (mat : Material) (n : Nat), exec (.cfg m) s = .next { s with
      mode := m, keyValid := false, err := .ok, material := mat, fresh := n }) ∧
  (State.reset.status = 0x00 ∧
    ∃ t, exec (.cfg .hardened) State.reset = .next t ∧ t.mode = .hardened ∧ t.status = 0x20) ∧
  (∀ s : State, s.build.hasFast = false → s.mode = .hardened → s.keyValid = false →
    ∃ t, exec (.cfg .fast) s = .next t ∧ t.status = 0x23)

/-- 45_commands.md R273. -/
def Obligations.SetkeyInstallsMaterial : Prop :=
  encode .setkey = 0x20 ∧
  (∀ s : State, ∃ mat : Material,
    exec .setkey s = .next { s with material := mat, keyValid := true, err := .ok } ∧
    mat.rk = (deriveMaterial s.keyIn).rk ∧ mat.ps = (deriveMaterial s.keyIn).ps ∧
    mat.post = (deriveMaterial s.keyIn).post ∧
    ∀ r : Fin 8, mat.perm[r] = roundPerm mat.ps[r] ∧ mat.invPerm[r] = invert mat.perm[r]) ∧
  (∀ s t : State, s.mode = .fast → exec .setkey s = .next t → t.status = 0x10) ∧
  (deriveMaterial 0x000102030405060708090A0B).rk = #v[
    0x5EEA711B1A0EC8953685234E, 0xDDAA7793FB42067DF0E4DBD0, 0xED962A80EBBC16FFDB12AF12,
    0xFE4348D3C84841B6A3FD1D29, 0xE7C6B3BF6166DC868730A849, 0x49F1440F65D3983E46693CEF,
    0xDB4CD58E5BC664C5B9D2C0AA, 0x7CE6E44D10896399E3F4366E] ∧
  (deriveMaterial 0x000102030405060708090A0B).post = 0x88898D0EA524C7F27DE1E5AE

/-- 45_commands.md R274. -/
def Obligations.EncWritesCiphertext : Prop :=
  encode .enc = 0x30 ∧
  (∀ s : State, s.keyValid = false → exec .enc s = .next { s with err := .noKey }) ∧
  (∀ s : State, s.keyValid = true →
    exec .enc s = .next { s with dataOut := encryptBlock s.mode s.material s.dataIn, err := .ok }) ∧
  ErrCode.noKey.code = 2 ∧
  (∀ (s : State) (md : Mode), s.keyValid = true → HoldsKey s →
    encryptBlock s.mode s.material s.dataIn = encryptBlock md s.material s.dataIn) ∧
  (∀ md : Mode, encryptBlock md (materialOf 0x000102030405060708090A0B) 0x00112233445566778899AABB =
    0x91887F21210206E90EBFF93D)

/-- 45_commands.md R275. -/
def Obligations.DecWritesPlaintext : Prop :=
  encode .dec = 0x40 ∧
  (∀ s : State, s.keyValid = false → exec .dec s = .next { s with err := .noKey }) ∧
  (∀ s : State, s.keyValid = true →
    exec .dec s = .next { s with dataOut := decryptBlock s.mode s.material s.dataIn, err := .ok }) ∧
  ErrCode.noKey.code = 2 ∧
  (∀ (s : State) (md : Mode), s.keyValid = true → HoldsKey s →
    decryptBlock s.mode s.material s.dataIn = decryptBlock md s.material s.dataIn) ∧
  (∀ s t u : State, s.keyValid = true → HoldsKey s → exec .enc s = .next t →
    exec .dec { t with dataIn := t.dataOut } = .next u → u.dataOut = s.dataIn) ∧
  (∀ md : Mode, decryptBlock md (materialOf 0x000102030405060708090A0B) 0x91887F21210206E90EBFF93D =
    0x00112233445566778899AABB)

/-- 45_commands.md R276. -/
def Obligations.ProbeReportsBuild : Prop :=
  encode .probe = 0x50 ∧
  (∀ s : State, ∃ cap : Byte, exec .probe s = .next { s with info := cap, err := .ok } ∧
    cap.getLsbD 0 = s.build.hasFast ∧ cap.getLsbD 1 = true ∧
    (cap.getLsbD 2 = true ↔ s.build.defaultImpl = .hardened) ∧ cap.extractLsb' 3 5 = 0) ∧
  buildCap { hasFast := true, defaultImpl := .fast } = 0x03 ∧
  buildCap { hasFast := false, defaultImpl := .hardened } = 0x06

/-! ### What every command does and does not do -/

/-- 60_exceptions.md R301: a command that ends with a fault code changed nothing but `ERR`; the core then takes
the next command as if the fault had not been, with nothing to clear first. -/
def Obligations.FaultWritesOnlyErr : Prop :=
  (∀ s t : State, runCommand s = .next t → t.err ≠ .ok → t = { s with err := t.err }) ∧
  (∀ (i : Instr) (s t : State), exec i s = .next t → t.err ≠ .ok → t = { s with err := t.err }) ∧
  (∀ s : State, ∃ t, runCommand s = .next t) ∧
  (∀ (s : State) (e : ErrCode), runCommand { s with err := e } = runCommand s)

/-- 60_exceptions.md R302: the codes, and the one cause of each. -/
def Obligations.FaultCodesAndCauses : Prop :=
  ErrCode.ok.code = 0 ∧ ErrCode.illegalCmd.code = 1 ∧ ErrCode.noKey.code = 2 ∧
  ErrCode.fastImplDisabled.code = 3 ∧ (∀ e : ErrCode, e.code.toNat < 4) ∧
  (∀ s t : State, runCommand s = .next t →
    (t.err = .illegalCmd ↔ s.cmd ∉ legalBytes) ∧
    (t.err = .noKey ↔ (decode s.cmd = .ok .enc ∨ decode s.cmd = .ok .dec) ∧ s.keyValid = false) ∧
    (t.err = .fastImplDisabled ↔ decode s.cmd = .ok (.cfg .fast) ∧ s.build.hasFast = false))

/-- 10_state.md R34: the bits of `STATUS`, and that `ERR` is not sticky. -/
def Obligations.StatusByteLayout : Prop :=
  (∀ s : State, s.status.extractLsb' 0 4 = s.err.code ∧ s.status.getLsbD 4 = s.keyValid ∧
    (s.status.getLsbD 5 = true ↔ s.mode = .hardened) ∧ s.status.extractLsb' 6 2 = 0) ∧
  (∀ (s : State) (e : ErrCode), runCommand { s with err := e } = runCommand s)

/-- 70_reset_and_hazards.md section 4: every command and every step completes. -/
def Obligations.EveryStepCompletes : Prop :=
  (∀ (i : Instr) (s : State), ∃ t, exec i s = .next t) ∧ ∀ s : State, StepCompletes s

/-- 45_commands.md R277: the two-state lifecycle. -/
def Obligations.LifecycleOfKeyValid : Prop :=
  (∀ b : Build, (State.resetOf b).keyValid = false) ∧
  (∀ (s : State) (rest : List HostEvent), s.host = .reset :: rest →
    ∃ t, step s = .next t ∧ t.keyValid = false) ∧
  (∀ s t : State, exec .setkey s = .next t → t.keyValid = true) ∧
  (∀ (s t : State) (m : Mode), exec (.cfg m) s = .next t → t.err = .ok → t.keyValid = false) ∧
  (∀ (i : Instr) (s t : State), exec i s = .next t →
    i = .nop ∨ i = .probe ∨ i = .enc ∨ i = .dec ∨ t.err ≠ .ok → t.keyValid = s.keyValid) ∧
  (∀ s t : State, runCommand s = .next t → t.err ≠ .ok → t.keyValid = s.keyValid) ∧
  (∀ (i : Instr) (s t : State), exec i s = .next t → i = .enc ∨ i = .dec →
    (t.err = .ok ↔ s.keyValid = true))

/-- 10_state.md section 5 (the access table): each register is written only by the commands the table marks,
and no command touches the ports, the build or the host's list. -/
def Obligations.RegistersWrittenOnlyByTheirCommands : Prop :=
  ∀ (i : Instr) (s t : State), exec i s = .next t →
    (i ≠ .probe → t.info = s.info) ∧
    (i ≠ .enc → i ≠ .dec → t.dataOut = s.dataOut) ∧
    ((∀ m, i ≠ .cfg m) → t.mode = s.mode) ∧
    ((∀ m, i ≠ .cfg m) → i ≠ .setkey → t.keyValid = s.keyValid ∧ t.material = s.material) ∧
    t.cmd = s.cmd ∧ t.keyIn = s.keyIn ∧ t.dataIn = s.dataIn ∧ t.build = s.build ∧ t.host = s.host

/-- 30_encoding.md section 3: a port that a command does not read is ignored, whatever it carries. -/
def Obligations.UnreadPortsIgnored : Prop :=
  (∀ (i : Instr) (s : State) (k : Block), i ≠ .setkey →
    ∃ t, exec i s = .next t ∧ exec i { s with keyIn := k } = .next { t with keyIn := k }) ∧
  (∀ (i : Instr) (s : State) (d : Block), i ≠ .enc → i ≠ .dec →
    ∃ t, exec i s = .next t ∧ exec i { s with dataIn := d } = .next { t with dataIn := d })

/-- 45_commands.md section 3 and 60_exceptions.md section 4: apart from the result of a successful ENC or DEC
nothing the host can read depends on the derived material. -/
def Obligations.MaterialNotReadable : Prop :=
  ∀ (i : Instr) (s : State) (mat : Material), (i = .enc ∨ i = .dec → s.keyValid = false) →
    ∃ t u, exec i s = .next t ∧ exec i { s with material := mat } = .next u ∧ t.hostView = u.hostView

/-! ### Bits and bytes -/

/-- 40_bitindex.md R101 and R108. -/
def Obligations.CellsAreNumbered : Prop :=
  (∀ c : Cell, (idxOf c).val = 16 * c.z.val + 4 * c.y.val + c.x.val) ∧
  (∀ i : Fin 96, (cellOf i).z.val = i.val / 16 ∧ (cellOf i).y.val = i.val % 16 / 4 ∧
    (cellOf i).x.val = i.val % 4) ∧
  (∀ c : Cell, cellOf (idxOf c) = c) ∧ (∀ i : Fin 96, idxOf (cellOf i) = i) ∧
  Function.Bijective idxOf ∧
  idxOf ⟨0, 0, 0⟩ = 0 ∧ idxOf ⟨3, 3, 5⟩ = 95 ∧ idxOf ⟨2, 1, 3⟩ = 54

/-- 40_bitindex.md R103, R104 and R105. -/
def Obligations.BitPositions : Prop :=
  (∀ i : Fin 96,
    (byteIndexOfBit i).val = 2 * (i.val / 16) + i.val % 16 / 8 ∧
    (bitOffsetInByte i).val = 7 - i.val % 16 % 8 ∧
    (byteIndexOfBit i).val = i.val / 8 ∧ (bitOffsetInByte i).val = 7 - i.val % 8) ∧
  (∀ c : Cell, (byteIndexOfBit (idxOf c)).val = 2 * c.z.val + c.y.val / 2 ∧
    (bitOffsetInByte (idxOf c)).val = 7 - (4 * (c.y.val % 2) + c.x.val))

/-- 40_bitindex.md R109. -/
def Obligations.BitLoadStoreLaws : Prop :=
  (∀ (S : Block) (i : Fin 96) (b : Bool), getBit (setBit S i b) i = b) ∧
  (∀ (S : Block) (i j : Fin 96) (b : Bool), j ≠ i → getBit (setBit S i b) j = getBit S j) ∧
  (∀ S T : Block, (∀ i, getBit S i = getBit T i) → S = T) ∧
  (∀ (S : Block) (k : Fin 12), (blockByte S k).toNat =
    ∑ o : Fin 8, (getBit S ⟨8 * k.val + 7 - o.val, by omega⟩).toNat * 2 ^ o.val)

/-- 40_bitindex.md section 2: packing and unpacking are the two directions of one correspondence. -/
def Obligations.PackUnpackInverse : Prop :=
  (∀ S : Block, pack (getBit S) = S) ∧
  (∀ (bits : Fin 96 → Bool) (i : Fin 96), getBit (pack bits) i = bits i) ∧
  (∀ bits : Fin 96 → Bool, unpack (pack bits) = (List.finRange 96).map bits)

/-! ### S-box -/

/-- 41_sbox.md R123, R124, R125: the ROMs tabulate the algebraic S-box and its inverse. -/
def Obligations.SboxRomsTabulateDefinition : Prop :=
  sboxRom =
    hexBytes 32 0x637C777BF26B6FC53001672BFED7AB76CA82C97DFA5947F0ADD4A2AF9CA472C0 ++
    hexBytes 32 0xB7FD9326363FF7CC34A5E5F171D8311504C723C31896059A071280E2EB27B275 ++
    hexBytes 32 0x09832C1A1B6E5AA0523BD6B329E32F8453D100ED20FCB15B6ACBBE394A4C58CF ++
    hexBytes 32 0xD0EFAAFB434D338545F9027F503C9FA851A3408F929D38F5BCB6DA2110FFF3D2 ++
    hexBytes 32 0xCD0C13EC5F974417C4A77E3D645D197360814FDC222A908846EEB814DE5E0BDB ++
    hexBytes 32 0xE0323A0A4906245CC2D3AC629195E479E7C8376D8DD54EA96C56F4EA657AAE08 ++
    hexBytes 32 0xBA78252E1CA6B4C6E8DD741F4BBD8B8A703EB5664803F60E613557B986C11D9E ++
    hexBytes 32 0xE1F8981169D98E949B1E87E9CE5528DF8CA1890DBFE6426841992D0FB054BB16 ∧
  invSboxRom =
    hexBytes 32 0x52096AD53036A538BF40A39E81F3D7FB7CE339829B2FFF87348E4344C4DEE9CB ++
    hexBytes 32 0x547B9432A6C2233DEE4C950B42FAC34E082EA16628D924B2765BA2496D8BD125 ++
    hexBytes 32 0x72F8F66486689816D4A45CCC5D65B6926C704850FDEDB9DA5E154657A78D9D84 ++
    hexBytes 32 0x90D8AB008CBCD30AF7E45805B8B34506D02C1E8FCA3F0F02C1AFBD0301138A6B ++
    hexBytes 32 0x3A9111414F67DCEA97F2CFCEF0B4E67396AC7422E7AD3585E2F937E81C75DF6E ++
    hexBytes 32 0x47F11A711D29C5896FB7620EAA18BE1BFC563E4BC6D279209ADBC0FE78CD5AF4 ++
    hexBytes 32 0x1FDDA8338807C731B11210592780EC5F60517FA919B54A0D2DE57A9F93C99CEF ++
    hexBytes 32 0xA0E03B4DAE2AF5B0C8EBBB3C83539961172B047EBA77D626E169146355210C7D ∧
  sboxRom.length = 256 ∧ invSboxRom.length = 256 ∧
  (∀ (v : Byte) (i : Fin 8), (affine v).getLsbD i = ((v.getLsbD i ^^ v.getLsbD ((i + 4) % 8)) ^^
    (v.getLsbD ((i + 5) % 8) ^^ v.getLsbD ((i + 6) % 8)) ^^ (v.getLsbD ((i + 7) % 8) ^^
    (0x63 : Byte).getLsbD i))) ∧
  (∀ v : Byte, affine v = v ^^^ rotl8 v 1 ^^^ rotl8 v 2 ^^^ rotl8 v 3 ^^^ rotl8 v 4 ^^^ 0x63) ∧
  (∀ s : Byte, invAffine s = rotl8 s 1 ^^^ rotl8 s 3 ^^^ rotl8 s 6 ^^^ 0x05) ∧
  (∀ a : Byte, subFast a = affine (gfInv a) ∧ invSubFast a = gfInv (invAffine a) ∧
    invSubFast (subFast a) = a ∧
    sboxRom[a.toNat]? = some (subFast a) ∧ invSboxRom[a.toNat]? = some (invSubFast a)) ∧
  subFast 0x00 = 0x63 ∧ subFast 0x52 = 0x00 ∧ subFast 0xFF = 0x16 ∧ affine 0xCA = 0xED ∧
  subFast 0x53 = 0xED ∧ invSubFast 0x63 = 0x00 ∧ invSubFast 0x00 = 0x52 ∧ invSubFast 0xED = 0x53

/-- 41_sbox.md section 4: the S-box is a bijection with the given inverse and has no fixed and no anti-fixed
point; and `inv` inverts every non-zero byte. -/
def Obligations.SboxIsBijective : Prop :=
  Function.Bijective subFast ∧
  (∀ a : Byte, subFast (invSubFast a) = a ∧ subFast a ≠ a ∧ subFast a ≠ a ^^^ 0xFF) ∧
  gfInv 0 = 0 ∧ (∀ a : Byte, a ≠ 0 → gmul a (gfInv a) = 1)

/-- 41_sbox.md R132. -/
def Obligations.HardenedSboxEqualsFast : Prop :=
  ∀ b : Byte, subCt b = subFast b ∧ invSubCt b = invSubFast b

/-- 41_sbox.md section 3: the masked multiplication is the field multiplication, on all pairs. -/
def Obligations.MaskedProductIsFieldProduct : Prop :=
  (∀ b : Byte, spread b = if b.getLsbD 0 then 0xFF else 0x00) ∧
  (∀ a : Byte, ctXtime a = xtime a) ∧ (∀ a b : Byte, ctGmul a b = gmul a b)

/-! ### Key schedule -/

/-- 42_keyschedule.md R154. The 8 bytes are stated where the bit length fits them; from 2^64 on, where R154 gives
no value, they are free (log entry 18) and only their number is stated. -/
def Obligations.PaddingOfMessage : Prop :=
  (∀ M : List Byte, ∃ k : Nat,
    shaPad M = M ++ [0x80] ++ List.replicate k 0 ++ be64Bytes (8 * M.length) ∧
    (shaPad M).length % 64 = 0 ∧ (∀ j, j < k → (M.length + 1 + j + 8) % 64 ≠ 0) ∧
    (M.length % 64 = 55 → k = 0) ∧ (M.length % 64 = 56 → k = 63)) ∧
  (∀ n : Nat, (be64Bytes n).length = 8) ∧
  (∀ n : Nat, n < 2 ^ 64 → ∀ j, j < 8 →
    ((be64Bytes n).getD j 0).toNat = n / 2 ^ (8 * (7 - j)) % 256) ∧
  shaPad [] = 0x80 :: List.replicate 63 0

/-- 42_keyschedule.md section 2: the HMAC key rule. A key over 64 bytes acts as its digest, a shorter key as
itself filled with zeros, and the outer hash is of the masked key and the inner digest. -/
def Obligations.HmacKeyRule : Prop :=
  (∀ Kh M : List Byte, 64 < Kh.length → hmac Kh M = hmac (sha256 Kh) M) ∧
  (∀ Kh M : List Byte, Kh.length < 64 → hmac (Kh ++ [0]) M = hmac Kh M) ∧
  (∀ Kh M : List Byte, Kh.length = 64 → hmac Kh M =
    sha256 (Kh.map (· ^^^ 0x5C) ++ sha256 (Kh.map (· ^^^ 0x36) ++ M))) ∧
  (∀ Kh M : List Byte, (hmac Kh M).length = 32)

/-- 42_keyschedule.md R172, R173: the salt and the info string, in hex and as text. -/
def Obligations.SaltAndInfoStrings : Prop :=
  hkdfSalt = hexBytes 32 0x5374616765644375626527732D39362D484B44462D5631000000000000000000 ∧
  hkdfSalt = (['S', 't', 'a', 'g', 'e', 'd', 'C', 'u', 'b', 'e', '\'', 's', '-', '9', '6', '-', 'H', 'K',
    'D', 'F', '-', 'V', '1'].map fun c => BitVec.ofNat 8 c.toNat) ++ List.replicate 9 0 ∧
  hkdfSalt.length = 32 ∧
  hkdfInfo = hexBytes 20 0x4375626539362D524B2D50532D506F73742D7631 ∧
  hkdfInfo = (['C', 'u', 'b', 'e', '9', '6', '-', 'R', 'K', '-', 'P', 'S', '-', 'P', 'o', 's', 't', '-',
    'v', '1'].map fun c => BitVec.ofNat 8 c.toNat) ∧
  hkdfInfo.length = 20

/-- 42_keyschedule.md R165, R166, R167. -/
def Obligations.HkdfExtractThenExpand : Prop :=
  (∀ key : List Byte, hkdfExtract key = hmac hkdfSalt key ∧ (hkdfExtract key).length = 32) ∧
  (∀ prk : List Byte, hkdfT prk 0 = [] ∧ ∀ i : Nat,
    hkdfT prk (i + 1) = hmac prk (hkdfT prk i ++ hkdfInfo ++ [BitVec.ofNat 8 (i + 1)])) ∧
  (∀ key : List Byte, hkdfOkm key =
    (hkdfT (hkdfExtract key) 1 ++ hkdfT (hkdfExtract key) 2 ++ hkdfT (hkdfExtract key) 3 ++
      hkdfT (hkdfExtract key) 4 ++ hkdfT (hkdfExtract key) 5 ++ hkdfT (hkdfExtract key) 6).take 172 ∧
    (hkdfOkm key).length = 172)

/-- 20_memory.md R55: the partition of the 172 bytes of `OKM`. -/
def Obligations.OkmPartition : Prop :=
  ∀ key : Block, ∃ okm : List Byte, okm = hkdfOkm (blockBytes key) ∧ okm.length = 172 ∧
    (∀ (r : Fin 8) (k : Fin 12),
      okm[12 * r.val + k.val]? = some (blockByte (deriveMaterial key).rk[r] k)) ∧
    (∀ (r : Fin 8) (j : Fin 8),
      okm[96 + 8 * r.val + j.val]? = some (seedByte (deriveMaterial key).ps[r] j)) ∧
    (∀ k : Fin 12, okm[160 + k.val]? = some (blockByte (deriveMaterial key).post k))

/-- 42_keyschedule.md R179: the source's known answer, with `PRK` and `T(1..6)`. -/
def Obligations.SourceKnownAnswer : Prop :=
  hkdfExtract (blockBytes sourceKey) =
    hexBytes 32 0xE0C9C387D741C5E210A27AC65AFCF940261478FBF675299251DE00D6C410F242 ∧
  hkdfT (hkdfExtract (blockBytes sourceKey)) 1 =
    hexBytes 32 0x5EEA711B1A0EC8953685234EDDAA7793FB42067DF0E4DBD0ED962A80EBBC16FF ∧
  hkdfT (hkdfExtract (blockBytes sourceKey)) 2 =
    hexBytes 32 0xDB12AF12FE4348D3C84841B6A3FD1D29E7C6B3BF6166DC868730A84949F1440F ∧
  hkdfT (hkdfExtract (blockBytes sourceKey)) 3 =
    hexBytes 32 0x65D3983E46693CEFDB4CD58E5BC664C5B9D2C0AA7CE6E44D10896399E3F4366E ∧
  hkdfT (hkdfExtract (blockBytes sourceKey)) 4 =
    hexBytes 32 0xF1CA09AC9042F77241CAB0B7F95A09BCAA56713E55477C3E6F14385DDF479B42 ∧
  hkdfT (hkdfExtract (blockBytes sourceKey)) 5 =
    hexBytes 32 0xBACF1FCD7C9D7850C2606E6DE2D7ACCE3DAE88507AF5767919356536F4E0453F ∧
  hkdfT (hkdfExtract (blockBytes sourceKey)) 6 =
    hexBytes 32 0x88898D0EA524C7F27DE1E5AE07DD5A1CD9EB3A8D6A7CB10FF471252D59B2E1F4 ∧
  deriveMaterial sourceKey =
    { rk := #v[0x5EEA711B1A0EC8953685234E, 0xDDAA7793FB42067DF0E4DBD0, 0xED962A80EBBC16FFDB12AF12,
        0xFE4348D3C84841B6A3FD1D29, 0xE7C6B3BF6166DC868730A849, 0x49F1440F65D3983E46693CEF,
        0xDB4CD58E5BC664C5B9D2C0AA, 0x7CE6E44D10896399E3F4366E]
      ps := #v[0xF1CA09AC9042F772, 0x41CAB0B7F95A09BC, 0xAA56713E55477C3E, 0x6F14385DDF479B42,
        0xBACF1FCD7C9D7850, 0xC2606E6DE2D7ACCE, 0x3DAE88507AF57679, 0x19356536F4E0453F]
      post := 0x88898D0EA524C7F27DE1E5AE }

/-- 42_keyschedule.md sections 1 and 2: the printed digests of SHA-256 and HMAC. -/
def Obligations.PrintedDigests : Prop :=
  sha256 [] = hexBytes 32 0xe3b0c44298fc1c149afbf4c8996fb92427ae41e4649b934ca495991b7852b855 ∧
  sha256 [0x61, 0x62, 0x63] =
    hexBytes 32 0xba7816bf8f01cfea414140de5dae2223b00361a396177a9cb410ff61f20015ad ∧
  sha256 (List.replicate 55 0x61) =
    hexBytes 32 0x9f4390f8d30c2dd92ec9f095b65e2b9ae9b0a925a5258e241c9f1e910f734318 ∧
  sha256 (List.replicate 64 0x61) =
    hexBytes 32 0xffe054fe7ae0cb6dc65c3af9b61d5209f439851db43d0ba5997337df154668eb ∧
  hmac (List.replicate 20 0x0b) (hexBytes 8 0x4869205468657265) =
    hexBytes 32 0xb0344c61d8db38535ca8afceaf0bf12b881dc200c9833da726e9376c2e32cff7

/-! ### Permutation engine -/

/-- 43_permutation.md R193. -/
def Obligations.SplitMixDraws : Prop :=
  (splitMixNext 0).2 = 0xE220A8397B1DCDAF ∧
  (splitMixNext (splitMixNext 0).1).2 = 0x6E789E6AA1B965F4 ∧
  (splitMixNext (splitMixNext (splitMixNext 0).1).1).2 = 0x06C45D188009454F ∧
  (splitMixNext 1234567).2 = 0x599ED017FB08FC85 ∧
  (splitMixNext (splitMixNext 1234567).1).2 = 0x2C73F08458540FA5 ∧
  (splitMixNext (splitMixNext (splitMixNext 1234567).1).1).2 = 0x883EBCE5A3F27C77 ∧
  (splitMixNext 0xFFFFFFFFFFFFFFFF).2 = 0xE4D971771B652C20 ∧
  (splitMixNext (splitMixNext 0xFFFFFFFFFFFFFFFF).1).2 = 0xE99FF867DBF682C9 ∧
  seedOf (fun j => (hexBytes 8 0xF1CA09AC9042F772).getD j.val 0) = 0xF1CA09AC9042F772 ∧
  (splitMixNext 0xF1CA09AC9042F772).2 = 0x191B8E1766CF13A6

/-- 43_permutation.md R205: the 36 tables in cycle notation. -/
def Obligations.PrimitivesInCycleNotation : Prop :=
  (∀ z : Fin 6,
    HasCycles (primRom ⟨3 * z.val, by omega⟩) (16 * z.val)
      [[0, 3, 15, 12], [1, 7, 14, 8], [2, 11, 13, 4], [5, 6, 10, 9]] ∧
    HasCycles (primRom ⟨3 * z.val + 1, by omega⟩) (16 * z.val)
      [[0, 12, 15, 3], [1, 8, 14, 7], [2, 4, 13, 11], [5, 9, 10, 6]] ∧
    HasCycles (primRom ⟨3 * z.val + 2, by omega⟩) (16 * z.val)
      [[0, 15], [1, 14], [2, 13], [3, 12], [4, 11], [5, 10], [6, 9], [7, 8]]) ∧
  (∀ z : Fin 4,
    HasCycles (primRom ⟨18 + 3 * z.val, by omega⟩) (16 * z.val)
      [[0, 4, 8, 12], [1, 5, 9, 13], [2, 6, 10, 14], [3, 7, 11, 15]] ∧
    HasCycles (primRom ⟨19 + 3 * z.val, by omega⟩) (16 * z.val)
      [[0, 12, 8, 4], [1, 13, 9, 5], [2, 14, 10, 6], [3, 15, 11, 7]] ∧
    HasCycles (primRom ⟨20 + 3 * z.val, by omega⟩) (16 * z.val)
      [[0, 1, 2, 3], [4, 5, 6, 7], [8, 9, 10, 11], [12, 13, 14, 15]]) ∧
  HasCycles (primRom 30) 0 [[0, 16, 32, 48, 64, 80], [4, 20, 36, 52, 68, 84],
    [8, 24, 40, 56, 72, 88], [12, 28, 44, 60, 76, 92]] ∧
  HasCycles (primRom 31) 0 [[1, 17, 33, 49, 65, 81], [5, 21, 37, 53, 69, 85],
    [9, 25, 41, 57, 73, 89], [13, 29, 45, 61, 77, 93]] ∧
  HasCycles (primRom 32) 0 [[2, 18, 34, 50, 66, 82], [6, 22, 38, 54, 70, 86],
    [10, 26, 42, 58, 74, 90], [14, 30, 46, 62, 78, 94]] ∧
  HasCycles (primRom 33) 0 [[0, 16, 32, 48, 64, 80], [1, 17, 33, 49, 65, 81],
    [2, 18, 34, 50, 66, 82], [3, 19, 35, 51, 67, 83]] ∧
  HasCycles (primRom 34) 0 [[4, 20, 36, 52, 68, 84], [5, 21, 37, 53, 69, 85],
    [6, 22, 38, 54, 70, 86], [7, 23, 39, 55, 71, 87]] ∧
  HasCycles (primRom 35) 0 [[8, 24, 40, 56, 72, 88], [9, 25, 41, 57, 73, 89],
    [10, 26, 42, 58, 74, 90], [11, 27, 43, 59, 75, 91]]

/-- 43_permutation.md section 2: all primitives are bijections, and which of them have their inverse in the
alphabet. -/
def Obligations.PrimitiveBijectionsAndInverses : Prop :=
  (∀ p : Fin 36, PermBijective (primRom p)) ∧
  (∀ z : Fin 6,
    compose (primRom ⟨3 * z.val, by omega⟩) (primRom ⟨3 * z.val + 1, by omega⟩) = permId ∧
    compose (primRom ⟨3 * z.val + 2, by omega⟩) (primRom ⟨3 * z.val + 2, by omega⟩) = permId) ∧
  (∀ z : Fin 4,
    compose (primRom ⟨18 + 3 * z.val, by omega⟩) (primRom ⟨19 + 3 * z.val, by omega⟩) = permId) ∧
  (∀ p ∈ ([20, 23, 26, 29, 30, 31, 32, 33, 34, 35] : List (Fin 36)), ∀ q : Fin 36,
    compose (primRom p) (primRom q) ≠ permId)

/-- 43_permutation.md R212: the laws of composition and inversion, and P3 for every key. -/
def Obligations.PermutationAlgebra : Prop :=
  (∀ A B C : Perm, compose (compose A B) C = compose A (compose B C)) ∧
  (∀ P : Perm, PermBijective P → compose P (invert P) = permId ∧ compose (invert P) P = permId) ∧
  (∀ A B : Perm, PermBijective A → PermBijective B →
    invert (compose A B) = compose (invert B) (invert A) ∧ PermBijective (compose A B)) ∧
  (∀ (key : Block) (r : Fin 8), PermBijective (materialOf key).perm[r] ∧
    ∀ i : Fin 96, permAt (materialOf key).invPerm[r] (permAt (materialOf key).perm[r] i) = i)

/-- 43_permutation.md R210, R211: what composing and inverting do to the entries. -/
def Obligations.ComposeAndInvertEntries : Prop :=
  (∀ (A B : Perm) (i : Fin 96), permAt (compose A B) i = permAt B (permAt A i)) ∧
  (∀ B : Perm, compose permId B = B) ∧ (∀ A : Perm, compose A permId = A) ∧
  permAt (compose (primRom 18) (primRom 7)) 0 = 4 ∧
  (∀ P : Perm, PermBijective P → ∀ i : Fin 96,
    permAt (invert P) (permAt P i) = i ∧ permAt P (permAt (invert P) i) = i)

/-- 43_permutation.md section 4: a round's permutation is the product, first pick first, of the 12 primitives
its seed draws; the picks of `PS[0]` and `PS[7]` of the source's key. -/
def Obligations.RoundPermIsProductOfPicks : Prop :=
  (∀ seed : Seed, (picksFrom 12 seed).length = 12 ∧
    roundPerm seed = (picksFrom 12 seed).foldl (fun acc p => compose acc (primRom p)) permId) ∧
  (∀ d : Word64, (pickOf d).val = d.toNat % 36) ∧
  picksFrom 12 0xF1CA09AC9042F772 = [18, 7, 7, 10, 4, 1, 35, 29, 23, 4, 7, 14] ∧
  picksFrom 12 0x19356536F4E0453F = [19, 16, 31, 20, 35, 14, 17, 20, 27, 2, 10, 26]

/-- 43_permutation.md R216: the twelve draws and picks of round 0 of the source's key, and `PERM[0]`. -/
def Obligations.SourceRoundPermutation : Prop :=
  (∀ r : Fin 8, (materialOf sourceKey).perm[r] = roundPerm (deriveMaterial sourceKey).ps[r]) ∧
  (deriveMaterial sourceKey).ps[(0 : Fin 8)] = 0xF1CA09AC9042F772 ∧
  ((List.range 12).map fun k => (splitMixNext ((fun s => (splitMixNext s).1)^[k] 0xF1CA09AC9042F772)).2) =
    [0x191B8E1766CF13A6, 0x76445AD93CBA0EBB, 0x406B6772A1D8D777, 0x1629DBD1889AE466,
     0x5A4D6348D4C54B58, 0xE410D2D9AE08A029, 0x319ABBD35FEF852F, 0xF3932F92B0224E85,
     0xF393EDE74181C363, 0xBD4950407DB9BAC8, 0x596975A9F935AE53, 0x87C4C83165C2275A] ∧
  picksFrom 12 0xF1CA09AC9042F772 = [18, 7, 7, 10, 4, 1, 35, 29, 23, 4, 7, 14] ∧
  (roundPerm 0xF1CA09AC9042F772).toList =
    ([13, 22, 5, 1, 14, 18, 6, 2, 15, 30, 7, 3, 12, 26, 4, 0,
      27, 46, 25, 24, 23, 42, 21, 20, 19, 38, 17, 16, 31, 34, 29, 28,
      35, 39, 43, 47, 56, 59, 58, 57, 33, 37, 41, 45, 32, 36, 40, 44] ++
     [61, 71, 53, 49, 62, 70, 54, 50, 63, 69, 55, 51, 60, 68, 52, 48,
      79, 78, 77, 76, 75, 74, 73, 72, 88, 89, 90, 91, 67, 66, 65, 64,
      80, 81, 82, 83, 84, 85, 86, 87, 8, 9, 10, 11, 92, 93, 94, 95])

/-- 43_permutation.md R223. -/
def Obligations.ApplyMovesBits : Prop :=
  (∀ (P : Perm) (S : Block), PermBijective P → applyFast P S = applyCt P S ∧
    (∀ src : Fin 96, getBit (applyFast P S) (permAt P src) = getBit S src) ∧
    (∀ dst : Fin 96, getBit (applyFast P S) dst = getBit S (permAt (invert P) dst))) ∧
  permAt (roundPerm 0xF1CA09AC9042F772) 0 = 13 ∧
  applyFast (roundPerm 0xF1CA09AC9042F772) 0x800000000000000000000000 = 0x000400000000000000000000

/-- 43_permutation.md R224, for both circuits. -/
def Obligations.ApplyInvertCompose : Prop :=
  ∀ (md : Mode) (A B : Perm) (S : Block), PermBijective A → PermBijective B →
    applyPerm md (invert A) (applyPerm md A S) = S ∧
    applyPerm md (compose A B) S = applyPerm md B (applyPerm md A S)

/-- 43_permutation.md section 5: the masked merge writes the one bit its mask selects. -/
def Obligations.MergeWritesOneBit : Prop :=
  ∀ (byte : Byte) (bit : Bool) (o j : Fin 8),
    (mergeByte byte bit (1 <<< o.val)).getLsbD j.val = if j = o then bit else byte.getLsbD j.val

/-! ### Round engine -/

/-- 44_round_engine.md R241, R242, R244: the stages act on the 12 bytes apart, and the key stages undo
themselves. -/
def Obligations.StagesActOnByteLanes : Prop :=
  (∀ (m : Material) (r : Fin 8) (S : Block) (k : Fin 12),
    blockByte (addRoundKey m r S) k = blockByte S k ^^^ blockByte m.rk[r] k) ∧
  (∀ (m : Material) (S : Block) (k : Fin 12),
    blockByte (addPostWhitening m S) k = blockByte S k ^^^ blockByte m.post k) ∧
  (∀ (m : Material) (r : Fin 8) (S : Block), addRoundKey m r (addRoundKey m r S) = S ∧
    addPostWhitening m (addPostWhitening m S) = S) ∧
  (∀ (S : Block) (k : Fin 12),
    blockByte (subBytes .fast S) k = subFast (blockByte S k) ∧
    blockByte (subBytes .hardened S) k = subCt (blockByte S k) ∧
    blockByte (invSubBytes .fast S) k = invSubFast (blockByte S k) ∧
    blockByte (invSubBytes .hardened S) k = invSubCt (blockByte S k)) ∧
  (∀ (md : Mode) (S : Block), invSubBytes md (subBytes md S) = S ∧ subBytes md (invSubBytes md S) = S) ∧
  subBytes .fast 0x5EFB53285E5BAEE2BE1C89F5 = 0x580FED345839E498AE9CA7E6 ∧
  (∀ m : Material, m.rk[(0 : Fin 8)] = 0x5EEA711B1A0EC8953685234E →
    addRoundKey m 0 0x00112233445566778899AABB = 0x5EFB53285E5BAEE2BE1C89F5)

/-- 44_round_engine.md R243, R246, R247: which circuit permutes in each mode, the order of the stages in a round
and of the rounds. -/
def Obligations.RoundsInOrder : Prop :=
  (∀ (P : Perm) (S : Block), applyPerm .fast P S = applyFast P S ∧ applyPerm .hardened P S = applyCt P S) ∧
  (∀ (m : Material) (r : Fin 8) (S : Block),
    permuteRound .fast m r S = applyFast m.perm[r] S ∧ permuteRound .hardened m r S = applyCt m.perm[r] S ∧
    invPermuteRound .fast m r S = applyFast m.invPerm[r] S ∧
    invPermuteRound .hardened m r S = applyCt m.invPerm[r] S) ∧
  (∀ md : Mode, permuteRound md (materialOf sourceKey) 0 0x580FED345839E498AE9CA7E6 =
    0xC8EACB70A16F148D3375A796) ∧
  (∀ (md : Mode) (m : Material) (S : Block) (r : Fin 8),
    encRound md m S r = applyPerm md m.perm[r] (subBytes md (addRoundKey m r S)) ∧
    decRound md m S r = addRoundKey m r (invSubBytes md (applyPerm md m.invPerm[r] S))) ∧
  (∀ (md : Mode) (m : Material) (B : Block),
    encryptBlock md m B = addPostWhitening m (encRound md m (encRound md m (encRound md m (encRound md m
      (encRound md m (encRound md m (encRound md m (encRound md m B 0) 1) 2) 3) 4) 5) 6) 7) ∧
    decryptBlock md m B = decRound md m (decRound md m (decRound md m (decRound md m (decRound md m
      (decRound md m (decRound md m (decRound md m (addPostWhitening m B) 7) 6) 5) 4) 3) 2) 1) 0) ∧
  encryptBlock .fast (materialOf sourceKey) 0x00112233445566778899AABB = 0x91887F21210206E90EBFF93D ∧
  decryptBlock .fast (materialOf sourceKey) 0x91887F21210206E90EBFF93D = 0x00112233445566778899AABB

/-- 44_round_engine.md R248, the source's P1, in every mode, the two directions also run on different
datapaths. -/
def Obligations.DecryptInvertsEncrypt : Prop :=
  ∀ (key B : Block) (md me : Mode),
    decryptBlock md (materialOf key) (encryptBlock me (materialOf key) B) = B ∧
    encryptBlock md (materialOf key) (decryptBlock me (materialOf key) B) = B

/-- 44_round_engine.md R251, the source's P2, and at the command: a keyed or unkeyed core in another `MODE`
goes through every command with the same outcome but for `MODE` itself, so `MODE` does not show in `DATA_OUT`,
`INFO` or `ERR`. -/
def Obligations.ModesAgree : Prop :=
  (∀ key B : Block,
    encryptBlock .fast (materialOf key) B = encryptBlock .hardened (materialOf key) B ∧
    decryptBlock .fast (materialOf key) B = decryptBlock .hardened (materialOf key) B) ∧
  (∀ (s : State) (m : Mode) (i : Instr), HoldsKey s →
    ∃ t u, exec i s = .next t ∧ exec i { s with mode := m } = .next u ∧ u = { t with mode := u.mode } ∧
      ((∀ m', i ≠ .cfg m') → u.mode = m ∧ t.mode = s.mode))

/-- 20_memory.md section 5: the result depends only on the installed key and `DATA_IN`, not on earlier blocks,
mode, build or anything else the state holds. -/
def Obligations.OutputDependsOnKeyAndBlock : Prop :=
  ∀ (s t s' t' : State) (i : Instr), i = .enc ∨ i = .dec → s.keyValid = true → t.keyValid = true →
    HoldsKey s → s.material = t.material → s.dataIn = t.dataIn →
    exec i s = .next s' → exec i t = .next t' → s'.dataOut = t'.dataOut

/-! ### Invariants -/

/-- 10_state.md section 6 with 00_scope.md section 4: the state after reset is safe on every build that meets
the constraint on `DEFAULT_IMPL`; `State.reset` is that of the default build (log entry 2). -/
def Obligations.ResetIsSafe : Prop :=
  State.reset = State.resetOf { hasFast := true, defaultImpl := .fast } ∧
  Safe State.reset ∧ ∀ b : Build, b.wf = true → Safe (State.resetOf b)

/-- 10_state.md section 5 (the invariant of the derived material) with the legal modes, the causes of the fault
codes and the values of `INFO`: every step of every safe state keeps them. -/
def Obligations.EveryStepKeepsSafe : Prop :=
  ∀ s t : State, Safe s → step s = .next t → Safe t

/-- 95_test_vectors.md section 8: the `STATUS` values that can occur. -/
def Obligations.StatusValuesThatOccur : Prop :=
  ∀ s : State, Safe s → s.status ∈
    ([0x00, 0x10, 0x20, 0x30, 0x01, 0x11, 0x21, 0x31, 0x02, 0x22, 0x23, 0x33] : List Byte) ∧
    (s.build.hasFast = true → s.status.extractLsb' 0 4 ≠ 3) ∧
    (s.build.hasFast = false → s.status.getLsbD 5 = true)

/-- 10_state.md section 5: while a key is installed every table is a bijection and its inverse undoes it. -/
def Obligations.KeyedTablesAreInverse : Prop :=
  ∀ s : State, Safe s → s.keyValid = true → ∀ r : Fin 8,
    s.material.perm[r] = roundPerm s.material.ps[r] ∧ PermBijective s.material.perm[r] ∧
    s.material.invPerm[r] = invert s.material.perm[r] ∧
    ∀ i : Fin 96, permAt s.material.invPerm[r] (permAt s.material.perm[r] i) = i

/-! ### Textual form -/

/-- 30_encoding.md section 5: the lines of the textual form and the events they write, every event written out.
How blanks separate words, that a port the line does not name keeps its value, and that a word of another length
writes nothing are the model's choice (log entry 9). -/
def Obligations.TextLinesWriteEvents : Prop :=
  (∀ key data : Block,
    textEvent key data ['N', 'O', 'P'] = some (.command { cmd := 0x00, keyIn := key, dataIn := data }) ∧
    textEvent key data ['C', 'F', 'G', ' ', 'F', 'A', 'S', 'T'] =
      some (.command { cmd := 0x10, keyIn := key, dataIn := data }) ∧
    textEvent key data ['C', 'F', 'G', ' ', 'H', 'A', 'R', 'D'] =
      some (.command { cmd := 0x11, keyIn := key, dataIn := data }) ∧
    textEvent key data ['N', 'E', 'W', ' ', 'F', 'A', 'S', 'T'] =
      some (.command { cmd := 0x10, keyIn := key, dataIn := data }) ∧
    textEvent key data ['N', 'E', 'W', ' ', 'H', 'A', 'R', 'D'] =
      some (.command { cmd := 0x11, keyIn := key, dataIn := data }) ∧
    textEvent key data ['P', 'R', 'O', 'B', 'E'] =
      some (.command { cmd := 0x50, keyIn := key, dataIn := data }) ∧
    textEvent key data ['R', 'E', 'S', 'E', 'T'] = some .reset) ∧
  (∀ (key data B : Block) (w : List Char) (n : Nat), WritesBlock B w →
    textEvent key data (['S', 'E', 'T', 'K', 'E', 'Y', ' '] ++ List.replicate n ' ' ++ w) =
      some (.command { cmd := 0x20, keyIn := B, dataIn := data }) ∧
    textEvent key data (['E', 'N', 'C', ' '] ++ List.replicate n ' ' ++ w) =
      some (.command { cmd := 0x30, keyIn := key, dataIn := B }) ∧
    textEvent key data (['D', 'E', 'C', ' '] ++ List.replicate n ' ' ++ w) =
      some (.command { cmd := 0x40, keyIn := key, dataIn := B })) ∧
  (∀ (key data : Block) (line comment : List Char) (n : Nat),
    textEvent key data (line ++ List.replicate n ' ' ++ ';' :: comment) = textEvent key data line) ∧
  (∀ (key data : Block) (w : List Char), w.length ≠ 24 → ' ' ∉ w → ';' ∉ w →
    textEvent key data (['S', 'E', 'T', 'K', 'E', 'Y', ' '] ++ w) = none ∧
    textEvent key data (['E', 'N', 'C', ' '] ++ w) = none ∧
    textEvent key data (['D', 'E', 'C', ' '] ++ w) = none) ∧
  (∀ key data : Block,
    textEvent key data ['C', 'F', 'G', ' ', 'F', 'A', 'S', 'T', ' ', ';', ' ', 'x'] =
      some (.command { cmd := 0x10, keyIn := key, dataIn := data }) ∧
    textEvent key data (['E', 'N', 'C', ' '] ++ List.replicate 22 '0' ++ ['a', 'B']) =
      some (.command { cmd := 0x30, keyIn := key, dataIn := 0xAB }) ∧
    textEvent key data (['S', 'E', 'T', 'K', 'E', 'Y', ' ', ' '] ++ List.replicate 24 'F') =
      some (.command { cmd := 0x20, keyIn := 0xFFFFFFFFFFFFFFFFFFFFFFFF, dataIn := data }) ∧
    textEvent key data (['D', 'E', 'C', ' '] ++ List.replicate 23 '0') = none)
end

