-- ==== Sys2Proof/Laws/Blocks.lean ====
section
/-! SUPPORT. The small lemmas of Blocks, bytes and bits, of permutation tables, and of the byte lanes. -/

namespace Sys2Proof.Machine

/-- `get_bit` in terms of the flat bus: bit i is `BUS[95 − i]` (10_state.md R21). -/
theorem getBit_eq_getLsbD (S : Block) (i : Fin 96) : getBit S i = S.getLsbD (95 - i) := by
  have hi := i.isLt
  have h : 88 - 8 * (2 * (i.val / 16) + i.val % 16 / 8) + (7 - i.val % 16 % 8) = 95 - i.val := by omega
  have h8 : 7 - i.val % 16 % 8 < 8 := by omega
  simp only [getBit, blockByte, byteIndexOfBit, bitOffsetInByte, BitVec.getLsbD_and,
    BitVec.getLsbD_ushiftRight, BitVec.getLsbD_extractLsb', Nat.add_zero, h, h8]
  simp

/-- A byte appended at the low end: its own bits. -/
theorem pushByte_low (acc : Block) (v : Byte) (n : Nat) (hn : n < 8) :
    ((acc <<< 8) ||| v.setWidth 96).getLsbD n = v.getLsbD n := by
  simp only [BitVec.getLsbD_or, BitVec.getLsbD_shiftLeft, BitVec.getLsbD_setWidth]
  simp [hn]
  omega

/-- A byte appended at the low end: the bits above it. -/
theorem pushByte_high (acc : Block) (v : Byte) (n : Nat) (hn : 8 ≤ n ∧ n < 96) :
    ((acc <<< 8) ||| v.setWidth 96).getLsbD n = acc.getLsbD (n - 8) := by
  simp only [BitVec.getLsbD_or, BitVec.getLsbD_shiftLeft, BitVec.getLsbD_setWidth]
  simp [hn.2, hn.1]

theorem blockByte_blockOf (f : Fin 12 → Byte) (k : Fin 12) : blockByte (blockOf f) k = f k := by
  apply BitVec.eq_of_getLsbD_eq
  intro j hj
  simp only [blockByte, BitVec.getLsbD_extractLsb', blockOf, hj, decide_true, Bool.true_and,
    List.finRange_succ, List.foldl_cons, List.map_cons, List.finRange_zero, List.map_nil, List.foldl_nil]
  fin_cases k <;>
    simp (disch := omega) only [pushByte_high, pushByte_low, Nat.sub_sub, Nat.add_sub_cancel_left,
      Nat.reduceMul, Nat.reduceSub, Nat.reduceAdd, Fin.mk_zero, Fin.mk_one, Nat.zero_add] <;> rfl

/-- Two Blocks with the same 12 bytes are equal. -/
theorem block_eq_of_bytes {A B : Block} (h : ∀ k, blockByte A k = blockByte B k) : A = B := by
  apply BitVec.eq_of_getLsbD_eq
  intro j hj
  have hk := h ⟨11 - j / 8, by omega⟩
  have hb := congrArg (fun v : Byte => v.getLsbD (j % 8)) hk
  simp only [blockByte, BitVec.getLsbD_extractLsb'] at hb
  have e : 88 - 8 * (11 - j / 8) + j % 8 = j := by omega
  have l : j % 8 < 8 := by omega
  simpa [e, l] using hb

/-- `B[k] <- v` writes byte k and no other. -/
theorem blockByte_setBlockByte (B : Block) (k j : Fin 12) (v : Byte) :
    blockByte (setBlockByte B k v) j = if j = k then v else blockByte B j := by
  apply BitVec.eq_of_getLsbD_eq
  intro b hb
  have hk := k.isLt
  have hj := j.isLt
  simp only [blockByte, setBlockByte, BitVec.getLsbD_extractLsb', BitVec.getLsbD_or, BitVec.getLsbD_and,
    BitVec.getLsbD_not, BitVec.getLsbD_shiftLeft, BitVec.getLsbD_setWidth, BitVec.getLsbD_allOnes]
  split
  · subst j
    have e : 88 - 8 * k.val + b - (88 - 8 * k.val) = b := by omega
    have e1 : 88 - 8 * k.val + b < 96 := by omega
    simp [hb, e, e1, show b < 96 by omega]
  · rename_i hne
    have hne' : j.val ≠ k.val := fun h => hne (Fin.ext h)
    have e1 : 88 - 8 * j.val + b < 96 := by omega
    by_cases hlt : 88 - 8 * j.val + b < 88 - 8 * k.val
    · simp [hb, e1, hlt]
    · have h8 : 8 ≤ 88 - 8 * j.val + b - (88 - 8 * k.val) := by omega
      have hv := BitVec.getLsbD_of_ge v _ h8
      simp [hb, e1, hlt, hv]
      omega

@[simp] theorem blockByte_xor (A B : Block) (k : Fin 12) :
    blockByte (A ^^^ B) k = blockByte A k ^^^ blockByte B k := by
  simp [blockByte, BitVec.extractLsb'_xor]

/-- A byte function acts on each of the 12 lanes alone (44_round_engine.md R242). -/
@[simp] theorem blockByte_mapBytes (f : Byte → Byte) (S : Block) (k : Fin 12) :
    blockByte (mapBytes f S) k = f (blockByte S k) := by
  simp [mapBytes, blockByte_blockOf]

theorem entryAt_eq_getElem : ∀ (l : List (Fin 96)) (n : Nat) (h : n < l.length), entryAt l n = l[n]
  | [], _, h => absurd h (Nat.not_lt_zero _)
  | _ :: _, 0, _ => rfl
  | _ :: l, n + 1, h => entryAt_eq_getElem l n (Nat.lt_of_succ_lt_succ h)

/-- `permAt` is the entry of the table. -/
theorem permAt_eq_getElem (P : Perm) (i : Fin 96) : permAt P i = P[i] := by
  rw [permAt, entryAt_eq_getElem _ _ (by simp)]
  simp

@[simp] theorem permOf_get (f : Fin 96 → Fin 96) (i : Fin 96) : permAt (permOf f) i = f i := by
  simp [permAt_eq_getElem, permOf]

@[simp] theorem permId_get (i : Fin 96) : permAt permId i = i := permOf_get _ i

@[simp] theorem compose_get (A B : Perm) (i : Fin 96) : permAt (compose A B) i = permAt B (permAt A i) := by
  simp [permAt_eq_getElem, compose]

/-- Two tables with the same entries are equal. -/
theorem perm_eq_of_entries {A B : Perm} (h : ∀ i, permAt A i = permAt B i) : A = B := by
  apply Vector.ext
  intro i hi
  simpa [permAt_eq_getElem] using h ⟨i, hi⟩

/-- The entries of a primitive are its coordinate map read through the cell numbering (43_permutation.md
R195). -/
theorem permAt_primRom (p : Fin 36) (i : Fin 96) :
    permAt (primRom p) i = idxOf (primitiveMap (primitiveOf p) (cellOf i)) := permOf_get _ i

/-- One write of the pass of `invert` (43_permutation.md R211). -/
theorem invertWrite_get (P Q : Perm) (i j : Fin 96) :
    permAt (invertWrite P Q i) j = if permAt P i = j then i else permAt Q j := by
  simp [invertWrite, permAt_eq_getElem, Vector.getElem_set, Fin.ext_iff]

end Sys2Proof.Machine
end

