-- ==== Sys2Proof/Laws/KeySchedule.lean ====
section
/-! SUPPORT. Lengths of the byte strings of the key schedule, and the bytes of a seed. -/

namespace Sys2Proof.Machine

@[simp] theorem be32Bytes_length (w : Word32) : (be32Bytes w).length = 4 := rfl

@[simp] theorem be64Bytes_length (n : Nat) : (be64Bytes n).length = 8 := rfl

/-- `L8` where 42_keyschedule.md R154 states it: the bytes of the bit length, the high one first. -/
theorem be64Bytes_of_lt {n : Nat} (h : n < 2 ^ 64) :
    be64Bytes n = (List.range 8).map fun j => (BitVec.ofNat 64 n).extractLsb' (8 * (7 - j)) 8 := by
  simp only [be64Bytes, if_pos h]
  rfl

@[simp] theorem shaDigest_length (H : HashWords) : (shaDigest H).length = 32 := rfl

/-- A digest has 32 bytes (42_keyschedule.md R150). -/
@[simp] theorem sha256_length (M : List Byte) : (sha256 M).length = 32 := by
  unfold sha256
  exact shaDigest_length _

@[simp] theorem hkdfT_zero (prk : List Byte) : hkdfT prk 0 = [] := rfl

/-- A byte appended at the low end of a seed: its own bits. -/
theorem pushSeedByte_low (acc : Seed) (v : Byte) (n : Nat) (hn : n < 8) :
    ((acc <<< 8) ||| v.setWidth 64).getLsbD n = v.getLsbD n := by
  simp only [BitVec.getLsbD_or, BitVec.getLsbD_shiftLeft, BitVec.getLsbD_setWidth]
  simp [hn]
  omega

/-- A byte appended at the low end of a seed: the bits above it. -/
theorem pushSeedByte_high (acc : Seed) (v : Byte) (n : Nat) (hn : 8 ≤ n ∧ n < 64) :
    ((acc <<< 8) ||| v.setWidth 64).getLsbD n = acc.getLsbD (n - 8) := by
  simp only [BitVec.getLsbD_or, BitVec.getLsbD_shiftLeft, BitVec.getLsbD_setWidth]
  simp [hn.2, hn.1]

/-- Byte j of the seed of 8 bytes (10_state.md R23). -/
@[simp] theorem seedByte_seedOf (f : Fin 8 → Byte) (k : Fin 8) : seedByte (seedOf f) k = f k := by
  apply BitVec.eq_of_getLsbD_eq
  intro j hj
  simp only [seedByte, BitVec.getLsbD_extractLsb', seedOf, hj, decide_true, Bool.true_and,
    List.finRange_succ, List.foldl_cons, List.map_cons, List.finRange_zero, List.map_nil, List.foldl_nil]
  fin_cases k <;>
    simp (disch := omega) only [pushSeedByte_high, pushSeedByte_low, Nat.sub_sub,
      Nat.add_sub_cancel_left, Nat.reduceMul, Nat.reduceSub, Nat.reduceAdd, Fin.mk_zero, Fin.mk_one,
      Nat.zero_add] <;> rfl

end Sys2Proof.Machine
end

