-- ==== Sys2Proof/Laws/State.lean ====
section
/-! SUPPORT. One lemma per field per named update of the state, each true by unfolding once. -/

namespace Sys2Proof.Machine

/-! ### setErr -/

@[simp] theorem State.setErr_cmd (e : ErrCode) (s : State) : (s.setErr e).cmd = s.cmd := rfl
@[simp] theorem State.setErr_keyIn (e : ErrCode) (s : State) : (s.setErr e).keyIn = s.keyIn := rfl
@[simp] theorem State.setErr_dataIn (e : ErrCode) (s : State) : (s.setErr e).dataIn = s.dataIn := rfl
@[simp] theorem State.setErr_dataOut (e : ErrCode) (s : State) : (s.setErr e).dataOut = s.dataOut := rfl
@[simp] theorem State.setErr_info (e : ErrCode) (s : State) : (s.setErr e).info = s.info := rfl
@[simp] theorem State.setErr_err (e : ErrCode) (s : State) : (s.setErr e).err = e := rfl
@[simp] theorem State.setErr_mode (e : ErrCode) (s : State) : (s.setErr e).mode = s.mode := rfl
@[simp] theorem State.setErr_keyValid (e : ErrCode) (s : State) : (s.setErr e).keyValid = s.keyValid := rfl
@[simp] theorem State.setErr_material (e : ErrCode) (s : State) : (s.setErr e).material = s.material := rfl
@[simp] theorem State.setErr_build (e : ErrCode) (s : State) : (s.setErr e).build = s.build := rfl
@[simp] theorem State.setErr_host (e : ErrCode) (s : State) : (s.setErr e).host = s.host := rfl
@[simp] theorem State.setErr_fresh (e : ErrCode) (s : State) : (s.setErr e).fresh = s.fresh := rfl

/-! ### setMode -/

@[simp] theorem State.setMode_cmd (m : Mode) (s : State) : (s.setMode m).cmd = s.cmd := rfl
@[simp] theorem State.setMode_keyIn (m : Mode) (s : State) : (s.setMode m).keyIn = s.keyIn := rfl
@[simp] theorem State.setMode_dataIn (m : Mode) (s : State) : (s.setMode m).dataIn = s.dataIn := rfl
@[simp] theorem State.setMode_dataOut (m : Mode) (s : State) : (s.setMode m).dataOut = s.dataOut := rfl
@[simp] theorem State.setMode_info (m : Mode) (s : State) : (s.setMode m).info = s.info := rfl
@[simp] theorem State.setMode_err (m : Mode) (s : State) : (s.setMode m).err = s.err := rfl
@[simp] theorem State.setMode_mode (m : Mode) (s : State) : (s.setMode m).mode = m := rfl
@[simp] theorem State.setMode_keyValid (m : Mode) (s : State) : (s.setMode m).keyValid = s.keyValid := rfl
@[simp] theorem State.setMode_material (m : Mode) (s : State) : (s.setMode m).material = s.material := rfl
@[simp] theorem State.setMode_build (m : Mode) (s : State) : (s.setMode m).build = s.build := rfl
@[simp] theorem State.setMode_host (m : Mode) (s : State) : (s.setMode m).host = s.host := rfl
@[simp] theorem State.setMode_fresh (m : Mode) (s : State) : (s.setMode m).fresh = s.fresh := rfl

/-! ### dropKey -/

@[simp] theorem State.dropKey_cmd (s : State) : (s.dropKey).cmd = s.cmd := rfl
@[simp] theorem State.dropKey_keyIn (s : State) : (s.dropKey).keyIn = s.keyIn := rfl
@[simp] theorem State.dropKey_dataIn (s : State) : (s.dropKey).dataIn = s.dataIn := rfl
@[simp] theorem State.dropKey_dataOut (s : State) : (s.dropKey).dataOut = s.dataOut := rfl
@[simp] theorem State.dropKey_info (s : State) : (s.dropKey).info = s.info := rfl
@[simp] theorem State.dropKey_err (s : State) : (s.dropKey).err = s.err := rfl
@[simp] theorem State.dropKey_mode (s : State) : (s.dropKey).mode = s.mode := rfl
@[simp] theorem State.dropKey_keyValid (s : State) : (s.dropKey).keyValid = false := rfl
@[simp] theorem State.dropKey_material (s : State) : (s.dropKey).material = Config.unheldMaterial s.fresh := rfl
@[simp] theorem State.dropKey_build (s : State) : (s.dropKey).build = s.build := rfl
@[simp] theorem State.dropKey_host (s : State) : (s.dropKey).host = s.host := rfl
@[simp] theorem State.dropKey_fresh (s : State) : (s.dropKey).fresh = s.fresh + 1 := rfl

/-! ### installKey -/

@[simp] theorem State.installKey_cmd (key : Block) (s : State) : (s.installKey key).cmd = s.cmd := rfl
@[simp] theorem State.installKey_keyIn (key : Block) (s : State) : (s.installKey key).keyIn = s.keyIn := rfl
@[simp] theorem State.installKey_dataIn (key : Block) (s : State) : (s.installKey key).dataIn = s.dataIn := rfl
@[simp] theorem State.installKey_dataOut (key : Block) (s : State) : (s.installKey key).dataOut = s.dataOut := rfl
@[simp] theorem State.installKey_info (key : Block) (s : State) : (s.installKey key).info = s.info := rfl
@[simp] theorem State.installKey_err (key : Block) (s : State) : (s.installKey key).err = s.err := rfl
@[simp] theorem State.installKey_mode (key : Block) (s : State) : (s.installKey key).mode = s.mode := rfl
@[simp] theorem State.installKey_keyValid (key : Block) (s : State) : (s.installKey key).keyValid = true := rfl
@[simp] theorem State.installKey_material (key : Block) (s : State) : (s.installKey key).material = materialOf key := rfl
@[simp] theorem State.installKey_build (key : Block) (s : State) : (s.installKey key).build = s.build := rfl
@[simp] theorem State.installKey_host (key : Block) (s : State) : (s.installKey key).host = s.host := rfl
@[simp] theorem State.installKey_fresh (key : Block) (s : State) : (s.installKey key).fresh = s.fresh := rfl

/-! ### setDataOut -/

@[simp] theorem State.setDataOut_cmd (B : Block) (s : State) : (s.setDataOut B).cmd = s.cmd := rfl
@[simp] theorem State.setDataOut_keyIn (B : Block) (s : State) : (s.setDataOut B).keyIn = s.keyIn := rfl
@[simp] theorem State.setDataOut_dataIn (B : Block) (s : State) : (s.setDataOut B).dataIn = s.dataIn := rfl
@[simp] theorem State.setDataOut_dataOut (B : Block) (s : State) : (s.setDataOut B).dataOut = B := rfl
@[simp] theorem State.setDataOut_info (B : Block) (s : State) : (s.setDataOut B).info = s.info := rfl
@[simp] theorem State.setDataOut_err (B : Block) (s : State) : (s.setDataOut B).err = s.err := rfl
@[simp] theorem State.setDataOut_mode (B : Block) (s : State) : (s.setDataOut B).mode = s.mode := rfl
@[simp] theorem State.setDataOut_keyValid (B : Block) (s : State) : (s.setDataOut B).keyValid = s.keyValid := rfl
@[simp] theorem State.setDataOut_material (B : Block) (s : State) : (s.setDataOut B).material = s.material := rfl
@[simp] theorem State.setDataOut_build (B : Block) (s : State) : (s.setDataOut B).build = s.build := rfl
@[simp] theorem State.setDataOut_host (B : Block) (s : State) : (s.setDataOut B).host = s.host := rfl
@[simp] theorem State.setDataOut_fresh (B : Block) (s : State) : (s.setDataOut B).fresh = s.fresh := rfl

/-! ### setInfo -/

@[simp] theorem State.setInfo_cmd (v : Byte) (s : State) : (s.setInfo v).cmd = s.cmd := rfl
@[simp] theorem State.setInfo_keyIn (v : Byte) (s : State) : (s.setInfo v).keyIn = s.keyIn := rfl
@[simp] theorem State.setInfo_dataIn (v : Byte) (s : State) : (s.setInfo v).dataIn = s.dataIn := rfl
@[simp] theorem State.setInfo_dataOut (v : Byte) (s : State) : (s.setInfo v).dataOut = s.dataOut := rfl
@[simp] theorem State.setInfo_info (v : Byte) (s : State) : (s.setInfo v).info = v := rfl
@[simp] theorem State.setInfo_err (v : Byte) (s : State) : (s.setInfo v).err = s.err := rfl
@[simp] theorem State.setInfo_mode (v : Byte) (s : State) : (s.setInfo v).mode = s.mode := rfl
@[simp] theorem State.setInfo_keyValid (v : Byte) (s : State) : (s.setInfo v).keyValid = s.keyValid := rfl
@[simp] theorem State.setInfo_material (v : Byte) (s : State) : (s.setInfo v).material = s.material := rfl
@[simp] theorem State.setInfo_build (v : Byte) (s : State) : (s.setInfo v).build = s.build := rfl
@[simp] theorem State.setInfo_host (v : Byte) (s : State) : (s.setInfo v).host = s.host := rfl
@[simp] theorem State.setInfo_fresh (v : Byte) (s : State) : (s.setInfo v).fresh = s.fresh := rfl

/-! ### sample -/

@[simp] theorem State.sample_cmd (t : Transaction) (s : State) : (s.sample t).cmd = t.cmd := rfl
@[simp] theorem State.sample_keyIn (t : Transaction) (s : State) : (s.sample t).keyIn = t.keyIn := rfl
@[simp] theorem State.sample_dataIn (t : Transaction) (s : State) : (s.sample t).dataIn = t.dataIn := rfl
@[simp] theorem State.sample_dataOut (t : Transaction) (s : State) : (s.sample t).dataOut = s.dataOut := rfl
@[simp] theorem State.sample_info (t : Transaction) (s : State) : (s.sample t).info = s.info := rfl
@[simp] theorem State.sample_err (t : Transaction) (s : State) : (s.sample t).err = s.err := rfl
@[simp] theorem State.sample_mode (t : Transaction) (s : State) : (s.sample t).mode = s.mode := rfl
@[simp] theorem State.sample_keyValid (t : Transaction) (s : State) : (s.sample t).keyValid = s.keyValid := rfl
@[simp] theorem State.sample_material (t : Transaction) (s : State) : (s.sample t).material = s.material := rfl
@[simp] theorem State.sample_build (t : Transaction) (s : State) : (s.sample t).build = s.build := rfl
@[simp] theorem State.sample_host (t : Transaction) (s : State) : (s.sample t).host = s.host := rfl
@[simp] theorem State.sample_fresh (t : Transaction) (s : State) : (s.sample t).fresh = s.fresh := rfl

/-! ### takeReset -/

@[simp] theorem State.takeReset_cmd (s : State) : (s.takeReset).cmd = s.cmd := rfl
@[simp] theorem State.takeReset_keyIn (s : State) : (s.takeReset).keyIn = s.keyIn := rfl
@[simp] theorem State.takeReset_dataIn (s : State) : (s.takeReset).dataIn = s.dataIn := rfl
@[simp] theorem State.takeReset_dataOut (s : State) : (s.takeReset).dataOut = Config.unheldBlock s.fresh := rfl
@[simp] theorem State.takeReset_info (s : State) : (s.takeReset).info = 0 := rfl
@[simp] theorem State.takeReset_err (s : State) : (s.takeReset).err = .ok := rfl
@[simp] theorem State.takeReset_mode (s : State) : (s.takeReset).mode = s.build.defaultImpl := rfl
@[simp] theorem State.takeReset_keyValid (s : State) : (s.takeReset).keyValid = false := rfl
@[simp] theorem State.takeReset_material (s : State) : (s.takeReset).material = Config.unheldMaterial s.fresh := rfl
@[simp] theorem State.takeReset_build (s : State) : (s.takeReset).build = s.build := rfl
@[simp] theorem State.takeReset_host (s : State) : (s.takeReset).host = s.host := rfl
@[simp] theorem State.takeReset_fresh (s : State) : (s.takeReset).fresh = s.fresh + 1 := rfl

end Sys2Proof.Machine
end

