-- ==== Sys2Proof/Laws/Ops.lean ====
section
/-! SUPPORT. For each shared operation and each meaning, what it can do, said once: callers cite these and do
not unfold the operation. -/

namespace Sys2Proof.Machine

variable {s t : State}

theorem next_inj {a b : State} :
    (Host.Outcome.next a : Host.Outcome State Fault Refusal) = .next b ↔ a = b :=
  ⟨fun h => Host.Outcome.next.inj h, fun h => h ▸ rfl⟩

/-- The successful end of a command: the state with `ERR` cleared, and no other outcome. -/
theorem complete_eq : complete s = .next (s.setErr .ok) := rfl

/-- A raised fault: the state with its code in `ERR`, and no other outcome (60_exceptions.md R301). -/
theorem raiseFault_eq (e : ErrCode) : raiseFault e s = .next (s.setErr e) := rfl

/-- CFG either raises FAST_IMPL_DISABLED or sets the mode and drops the key (45_commands.md R272). -/
theorem execCfg_cases (m : Mode) (h : execCfg m s = .next t) :
    (m = .fast ∧ s.build.hasFast = false ∧ t = s.setErr .fastImplDisabled) ∨
      ((m = .fast → s.build.hasFast = true) ∧ t = (s.setMode m).dropKey.setErr .ok) := by
  unfold execCfg at h
  split at h
  next hc => exact .inl ⟨hc.1, hc.2, (next_inj.mp h).symm⟩
  next hc => exact .inr ⟨fun hm => by simpa [hm] using hc, (next_inj.mp h).symm⟩

/-- SETKEY installs the key on `KEY_IN` (45_commands.md R273). -/
theorem execSetkey_cases (h : execSetkey s = .next t) : t = (s.installKey s.keyIn).setErr .ok :=
  (next_inj.mp h).symm

/-- ENC either raises NO_KEY or writes `DATA_OUT` (45_commands.md R274). -/
theorem execEnc_cases (h : execEnc s = .next t) :
    (s.keyValid = false ∧ t = s.setErr .noKey) ∨
      (s.keyValid = true ∧ t = (s.setDataOut (encryptBlock s.mode s.material s.dataIn)).setErr .ok) := by
  unfold execEnc at h
  split at h
  next hk => exact .inl ⟨hk, (next_inj.mp h).symm⟩
  next hk => exact .inr ⟨by simpa using hk, (next_inj.mp h).symm⟩

/-- DEC either raises NO_KEY or writes `DATA_OUT` (45_commands.md R275). -/
theorem execDec_cases (h : execDec s = .next t) :
    (s.keyValid = false ∧ t = s.setErr .noKey) ∨
      (s.keyValid = true ∧ t = (s.setDataOut (decryptBlock s.mode s.material s.dataIn)).setErr .ok) := by
  unfold execDec at h
  split at h
  next hk => exact .inl ⟨hk, (next_inj.mp h).symm⟩
  next hk => exact .inr ⟨by simpa using hk, (next_inj.mp h).symm⟩

/-- Everything one command can do to the state. -/
theorem exec_cases (i : Instr) (h : exec i s = .next t) :
    (∃ e, t = s.setErr e ∧ (e = .ok → i = .nop) ∧ (e ≠ .illegalCmd) ∧
        (e = .noKey → s.keyValid = false ∧ (i = .enc ∨ i = .dec)) ∧
        (e = .fastImplDisabled → s.build.hasFast = false ∧ i = .cfg .fast)) ∨
      (∃ m, i = .cfg m ∧ (m = .fast → s.build.hasFast = true) ∧ t = (s.setMode m).dropKey.setErr .ok) ∨
      (i = .setkey ∧ t = (s.installKey s.keyIn).setErr .ok) ∨
      (∃ B, (i = .enc ∧ B = encryptBlock s.mode s.material s.dataIn ∨
          i = .dec ∧ B = decryptBlock s.mode s.material s.dataIn) ∧
        s.keyValid = true ∧ t = (s.setDataOut B).setErr .ok) ∨
      (i = .probe ∧ t = (s.setInfo (buildCap s.build)).setErr .ok) := by
  cases i with
  | nop => exact .inl ⟨.ok, (next_inj.mp h).symm, fun _ => rfl, by simp, by simp, by simp⟩
  | cfg m =>
    obtain ⟨rfl, hf, rfl⟩ | ⟨hf, rfl⟩ := execCfg_cases m h
    · exact .inl ⟨.fastImplDisabled, rfl, by simp, by simp, by simp, fun _ => ⟨hf, rfl⟩⟩
    · exact .inr (.inl ⟨m, rfl, hf, rfl⟩)
  | setkey => exact .inr (.inr (.inl ⟨rfl, execSetkey_cases h⟩))
  | enc =>
    obtain ⟨hk, rfl⟩ | ⟨hk, rfl⟩ := execEnc_cases h
    · exact .inl ⟨.noKey, rfl, by simp, by simp, fun _ => ⟨hk, .inl rfl⟩, by simp⟩
    · exact .inr (.inr (.inr (.inl ⟨_, .inl ⟨rfl, rfl⟩, hk, rfl⟩)))
  | dec =>
    obtain ⟨hk, rfl⟩ | ⟨hk, rfl⟩ := execDec_cases h
    · exact .inl ⟨.noKey, rfl, by simp, by simp, fun _ => ⟨hk, .inr rfl⟩, by simp⟩
    · exact .inr (.inr (.inr (.inl ⟨_, .inr ⟨rfl, rfl⟩, hk, rfl⟩)))
  | probe => exact .inr (.inr (.inr (.inr ⟨rfl, (next_inj.mp h).symm⟩)))

/-- A command byte either decodes and executes, or raises ILLEGAL_CMD (45_commands.md R270). -/
theorem runCommand_cases (h : runCommand s = .next t) :
    (∃ i, decode s.cmd = .ok i ∧ exec i s = .next t) ∨
      (∃ e, decode s.cmd = .error e ∧ t = s.setErr .illegalCmd) := by
  unfold runCommand at h
  split at h
  next i hi => exact .inl ⟨i, hi, h⟩
  next e he => exact .inr ⟨e, he, (next_inj.mp h).symm⟩

/-- Everything one step can do: idle, a command, or a reset (10_state.md R20). -/
theorem step_cases (h : step s = .next t) :
    (s.host = [] ∧ t = s) ∨
      (∃ tr rest, s.host = .command tr :: rest ∧
        runCommand (State.sample tr { s with host := rest }) = .next t) ∨
      (∃ rest, s.host = .reset :: rest ∧ t = State.takeReset { s with host := rest }) ∨
      (∃ tr rest, s.host = .resetDuring tr :: rest ∧
        t = (State.sample tr { s with host := rest }).takeReset) := by
  unfold step at h
  split at h
  next hh => exact .inl ⟨hh, (next_inj.mp h).symm⟩
  next e rest hh =>
    cases e with
    | command tr => exact .inr (.inl ⟨tr, rest, hh, h⟩)
    | reset => exact .inr (.inr (.inl ⟨rest, hh, (next_inj.mp h).symm⟩))
    | resetDuring tr => exact .inr (.inr (.inr ⟨tr, rest, hh, (next_inj.mp h).symm⟩))

end Sys2Proof.Machine
end

