-- ==== Sys2Proof/Laws/PerInstr.lean ====
section
/-! SUPPORT. Facts about every command as syntax, one lemma per constructor. -/

namespace Sys2Proof.Laws.EncodingFitsRow

/-- The command is well formed and its byte fits the row of 30_encoding.md R83 that names it. -/
def Statement (i : Instr) : Prop :=
  i.wf = true ∧ ∃ r, matchRows[rowOf i]? = some r ∧ r.fits (encode i) = true

theorem nop : Statement .nop := ⟨by decide, _, rfl, by decide⟩

theorem cfg (m : Mode) : Statement (.cfg m) := by cases m <;> exact ⟨by decide, _, rfl, by decide⟩

theorem setkey : Statement .setkey := ⟨by decide, _, rfl, by decide⟩

theorem enc : Statement .enc := ⟨by decide, _, rfl, by decide⟩

theorem dec : Statement .dec := ⟨by decide, _, rfl, by decide⟩

theorem probe : Statement .probe := ⟨by decide, _, rfl, by decide⟩

end Sys2Proof.Laws.EncodingFitsRow
end

