-- ==== Sys2Proof/Tests/Slice0.lean ====
section
/-! SUPPORT. Tests on fixed values, each with its source in the spec, and one witness for every statement of
Certificates/Slice0/Obligations.lean that has hypotheses. -/

namespace Sys2Proof.Tests

open Sys2Proof Sys2Proof.Machine

/-! ### Well-formed fields: one ill-formed term for each check (30_encoding.md R85) -/

theorem test_wf_refuses_reserved_opcode :
    ({ op := 0x6, rsv := 0, m := 0 } : CommandFields).opAssigned = false ∧
      ({ op := 0x6, rsv := 0, m := 0 } : CommandFields).wf = false := by decide

theorem test_wf_refuses_reserved_bits :
    ({ op := 0x1, rsv := 1, m := 0 } : CommandFields).rsvZero = false ∧
      ({ op := 0x1, rsv := 1, m := 0 } : CommandFields).wf = false := by decide

theorem test_wf_refuses_mode_bit_outside_cfg :
    ({ op := 0x3, rsv := 0, m := 1 } : CommandFields).modeBitOk = false ∧
      ({ op := 0x3, rsv := 0, m := 1 } : CommandFields).wf = false := by decide

theorem test_build_wf_refuses_fast_default_without_fast :
    ({ hasFast := false, defaultImpl := .fast } : Build).wf = false := by decide

/-! ### Decoding: bytes written out bit by bit, `oooo rrr m` (30_encoding.md R81, R82) -/

theorem test_decode_nop : decode 0b0000_000_0 = .ok .nop := by decide
theorem test_decode_cfg_fast : decode 0b0001_000_0 = .ok (.cfg .fast) := by decide
theorem test_decode_cfg_hardened : decode 0b0001_000_1 = .ok (.cfg .hardened) := by decide
theorem test_decode_setkey : decode 0b0010_000_0 = .ok .setkey := by decide
theorem test_decode_enc : decode 0b0011_000_0 = .ok .enc := by decide
theorem test_decode_dec : decode 0b0100_000_0 = .ok .dec := by decide
theorem test_decode_probe : decode 0b0101_000_0 = .ok .probe := by decide

/-- 95_test_vectors.md section 8: samples of illegal bytes. -/
theorem test_decode_illegal_samples :
    decode 0x01 = .error .modeBitOutsideCfg ∧ decode 0x02 = .error .reservedBits ∧
      decode 0x1E = .error .reservedBits ∧ decode 0x51 = .error .modeBitOutsideCfg ∧
      decode 0xF0 = .error .reservedOpcode := by decide

theorem test_table_word_of_one_byte :
    decodeTableWord 8 0x11 = some (.cfg .hardened) ∧ decodeTableWord 8 0x12 = none ∧
      decodeTableWord 16 0x1100 = none := by decide

/-! ### The units -/

/-- 95_test_vectors.md section 2. -/
theorem test_bit_unit :
    idxOf ⟨2, 1, 3⟩ = 54 ∧ byteIndexOfBit 54 = 6 ∧ bitOffsetInByte 54 = 1 ∧
      getBit 0x00112233445566778899AABB 11 = true ∧ getBit 0x00112233445566778899AABB 93 = false ∧
      setBit (setBit 0 0 true) 95 true = 0x800000000000000000000001 := by decide +kernel

/-- 95_test_vectors.md section 3. -/
theorem test_sbox_values :
    gmul 0x57 0x83 = 0xC1 ∧ gfInv 0x53 = 0xCA ∧ sboxOf 0x53 = 0xED ∧ invSboxOf 0xFF = 0x7D ∧
      subFast 0x80 = 0xCD ∧ invSubFast 0xFF = 0x7D ∧ ctInv 0x53 = 0xCA ∧ subCt 0x53 = 0xED ∧
      invSubCt 0xED = 0x53 := by decide +kernel

/-- 95_test_vectors.md section 4.1: "abc". -/
theorem test_sha256_abc : (sha256 [0x61, 0x62, 0x63]).take 4 = [0xBA, 0x78, 0x16, 0xBF] := by
  decide +kernel

/-- 95_test_vectors.md section 4.2: the first bytes of `PRK` of the zero key. -/
theorem test_prk_zero_key :
    (hkdfExtract (blockBytes 0)).take 4 = [0x31, 0xCA, 0xD0, 0xAD] := by decide +kernel

/-- 43_permutation.md R196 to R203: a printed entry of each kind of primitive. -/
theorem test_primitive_entries :
    permAt (primRom 0) 3 = 15 ∧ permAt (primRom 1) 12 = 15 ∧ permAt (primRom 2) 7 = 8 ∧
      permAt (primRom 18) 12 = 0 ∧ permAt (primRom 19) 4 = 0 ∧ permAt (primRom 20) 7 = 4 ∧
      permAt (primRom 30) 80 = 0 ∧ permAt (primRom 33) 83 = 3 := by decide +kernel

/-- 95_test_vectors.md section 5.1: seed 1. -/
theorem test_splitmix_seed_one : (splitMixNext 1).2 = 0x910A2DEC89025CC1 := by decide +kernel

/-- A material whose round 0 is that of the source's key (42_keyschedule.md R179, 43_permutation.md R216). -/
def roundZeroMaterial : Material :=
  { rk := Vector.replicate 8 0x5EEA711B1A0EC8953685234E
    ps := Vector.replicate 8 0xF1CA09AC9042F772
    post := 0
    perm := Vector.replicate 8 (roundPerm 0xF1CA09AC9042F772)
    invPerm := Vector.replicate 8 (invert (roundPerm 0xF1CA09AC9042F772)) }

/-- 44_round_engine.md R241, R242, R243: round 0 of the worked example, on both datapaths. -/
theorem test_round_zero :
    encRound .fast roundZeroMaterial 0x00112233445566778899AABB 0 = 0xC8EACB70A16F148D3375A796 ∧
      encRound .hardened roundZeroMaterial 0x00112233445566778899AABB 0 = 0xC8EACB70A16F148D3375A796 := by
  decide +kernel

theorem test_round_zero_undone :
    decRound .fast roundZeroMaterial 0xC8EACB70A16F148D3375A796 0 = 0x00112233445566778899AABB := by
  decide +kernel

/-! ### One step of each command -/

/-- The status, `INFO` and key flag of an outcome that goes on. -/
def visible : Host.Outcome State Fault Refusal → Option (Byte × Byte × Bool)
  | .next t => some (t.status, t.info, t.keyValid)
  | _ => none

/-- A keyed core in a given mode, just after a success. -/
def keyedCore (b : Build) (m : Mode) : State :=
  { State.resetOf b with mode := m, material := materialOf 0, keyValid := true }

/-- What one command byte does to a core, as `step` runs it. -/
def stepByte (s : State) (c : Byte) : Option (Byte × Byte × Bool) :=
  visible (step (s.withFetchWord 8 c.toNat))

/-- 95_test_vectors.md section 8: Fast, keyed, `ERR = 1`. -/
theorem test_nop_acknowledges :
    stepByte { keyedCore Config.standardBuild .fast with err := .illegalCmd } 0x00 =
      some (0x10, 0x00, true) := by decide +kernel

/-- 95_test_vectors.md section 8: CFG FAST on a keyed Fast core drops the key. -/
theorem test_cfg_drops_key :
    stepByte (keyedCore Config.standardBuild .fast) 0x10 = some (0x00, 0x00, false) := by decide +kernel

/-- 95_test_vectors.md section 8: CFG FAST on a keyed core without the Fast datapath keeps the key. -/
theorem test_cfg_fast_disabled :
    stepByte (keyedCore Config.hardenedBuild .hardened) 0x10 = some (0x33, 0x00, true) := by
  decide +kernel

/-- 95_test_vectors.md section 9, program 1. -/
theorem test_setkey_status : stepByte State.reset 0x20 = some (0x10, 0x00, true) := by decide +kernel

/-- 95_test_vectors.md section 8. -/
theorem test_enc_unkeyed : stepByte State.reset 0x30 = some (0x02, 0x00, false) := by decide +kernel

theorem test_enc_keyed_status :
    stepByte (keyedCore Config.standardBuild .hardened) 0x30 = some (0x30, 0x00, true) := by
  decide +kernel

/-- 95_test_vectors.md section 8. -/
theorem test_dec_unkeyed : stepByte State.reset 0x40 = some (0x02, 0x00, false) := by decide +kernel

/-- 95_test_vectors.md section 8: the third printed value of `CAP`. -/
theorem test_probe_hardened_default :
    stepByte (State.resetOf { hasFast := true, defaultImpl := .hardened }) 0x50 =
      some (0x20, 0x07, false) := by decide +kernel

theorem test_probe_hardened_only :
    stepByte (State.resetOf Config.hardenedBuild) 0x50 = some (0x20, 0x06, false) := by decide +kernel

/-- 95_test_vectors.md section 8: byte 31 on a keyed Fast core. -/
theorem test_illegal_byte :
    stepByte (keyedCore Config.standardBuild .fast) 0x31 = some (0x11, 0x00, true) := by decide +kernel

/-- 95_test_vectors.md section 9, program 5. -/
theorem test_reset_event :
    visible (step { keyedCore Config.standardBuild .fast with info := 3, host := [.reset] }) =
      some (0x00, 0x00, false) := by decide +kernel

/-! ### Witnesses: states and operands that meet the hypotheses of the statements -/

/-- A transaction that carries a command byte. -/
def carries (c : Byte) : Transaction := { cmd := c, keyIn := 0, dataIn := 0 }

/-- A just reset core whose host issues a command byte and nothing more. -/
def issuing (b : Build) (c : Byte) : State := { State.resetOf b with host := [.command (carries c)] }

theorem keyedCore_holdsKey (b : Build) (m : Mode) : HoldsKey (keyedCore b m) := fun _ => ⟨0, rfl⟩

theorem reset_safe : Safe State.reset where
  build := rfl
  mode := fun _ => rfl
  key := fun h => absurd h (by decide)
  noKey := fun h => absurd h (by decide)
  noFast := fun h => absurd h (by decide)
  info := .inl rfl

theorem keyedCore_safe : Safe (keyedCore Config.standardBuild .fast) where
  build := rfl
  mode := fun _ => rfl
  key := keyedCore_holdsKey _ _
  noKey := fun h => absurd h (by decide)
  noFast := fun h => absurd h (by decide)
  info := .inl rfl

theorem hardenedCore_safe : Safe (State.resetOf Config.hardenedBuild) where
  build := rfl
  mode := fun h => absurd h (by decide)
  key := fun h => absurd h (by decide)
  noKey := fun h => absurd h (by decide)
  noFast := fun h => absurd h (by decide)
  info := .inl rfl

/-- A primitive that is its own inverse (43_permutation.md R204), so a bijection. -/
theorem half_turn_bijective : PermBijective (primRom 2) :=
  Function.Involutive.bijective (show ∀ i, permAt (primRom 2) (permAt (primRom 2) i) = i by decide +kernel)

theorem row_up_bijective : PermBijective (primRom 18) := by
  have h : ∀ i, permAt (primRom 19) (permAt (primRom 18) i) = i ∧
      permAt (primRom 18) (permAt (primRom 19) i) = i := by decide +kernel
  exact ⟨Function.LeftInverse.injective fun i => (h i).1, Function.RightInverse.surjective fun i => (h i).2⟩

theorem witness_EncodeDecodeRoundTrip : ∃ (b : Byte) (i : Instr), decode b = .ok i :=
  ⟨0x11, .cfg .hardened, by decide⟩

theorem witness_DecoderFollowsMaskTable :
    ∃ (b : Byte) (i : Instr) (k : Nat) (r : MatchRow), decode b = .ok i ∧ matchRows[k]? = some r :=
  ⟨0x11, .cfg .hardened, 5, ⟨0x50, 0xFF⟩, by decide, rfl⟩

theorem witness_IllegalBytesRefused :
    (∃ (s : State) (e : IllegalCommand), decode s.cmd = .error e) ∧
      ∃ (b c : Byte) (i : Instr), decode b = .ok i ∧ decode c = .ok i :=
  ⟨⟨{ State.reset with cmd := 0x60 }, .reservedOpcode, by decide⟩, 0x50, 0x50, .probe, by decide, by decide⟩

theorem witness_StepRunsDecodedCommand : ∃ (s : State) (t : Transaction) (rest : List HostEvent) (i : Instr),
    s.host = .command t :: rest ∧ decode t.cmd = .ok i :=
  ⟨issuing Config.standardBuild 0x50, carries 0x50, [], .probe, rfl, by decide⟩

theorem witness_StepRaisesIllegalCommand : ∃ (s : State) (t : Transaction) (rest : List HostEvent),
    s.host = .command t :: rest ∧ t.cmd ∉ ([0x00, 0x10, 0x11, 0x20, 0x30, 0x40, 0x50] : List Byte) :=
  ⟨issuing Config.standardBuild 0x51, carries 0x51, [], rfl, by decide⟩

theorem witness_StepRaisesCommandFaults :
    (∀ c : Byte, c = 0x30 ∨ c = 0x40 → ∃ (s : State) (t : Transaction) (rest : List HostEvent),
      s.host = .command t :: rest ∧ t.cmd = c ∧ s.keyValid = false) ∧
    (∃ (s : State) (t : Transaction) (rest : List HostEvent),
      s.host = .command t :: rest ∧ t.cmd = 0x10 ∧ s.build.hasFast = false) ∧
    ∃ (s t : State) (m : Mode), exec (.cfg m) s = .next t ∧ t.err = .ok :=
  ⟨fun c _ => ⟨issuing Config.standardBuild c, carries c, [], rfl, rfl, rfl⟩,
    ⟨issuing Config.hardenedBuild 0x10, carries 0x10, [], rfl, rfl, rfl⟩,
    State.reset, _, .hardened, rfl, rfl⟩

theorem witness_IdleStepKeepsState : ∃ s : State, s.host = [] := ⟨State.reset, rfl⟩

theorem witness_ResetValues :
    (∃ (s : State) (rest : List HostEvent), s.host = .reset :: rest) ∧ ∃ s : State, s.keyValid = false :=
  ⟨⟨{ keyedCore Config.standardBuild .fast with host := [.reset] }, [], rfl⟩, State.reset, rfl⟩

theorem witness_NopClearsError :
    ∃ s : State, s.mode = .hardened ∧ s.keyValid = false ∧ s.err = .noKey :=
  ⟨{ State.resetOf Config.hardenedBuild with err := .noKey }, rfl, rfl, rfl⟩

theorem witness_CfgSelectsModeDropsKey :
    (∃ s : State, s.build.hasFast = false ∧ s.mode = .hardened ∧ s.keyValid = false) ∧
      (∃ (s : State) (m : Mode), m = .fast ∧ (m = .fast → s.build.hasFast = true)) ∧
      ∃ (s : State) (m : Mode), s.build.hasFast = false ∧ (m = .fast → s.build.hasFast = true) :=
  ⟨⟨State.resetOf Config.hardenedBuild, rfl, rfl, rfl⟩, ⟨State.reset, .fast, rfl, fun _ => rfl⟩,
    State.resetOf Config.hardenedBuild, .hardened, rfl, fun h => absurd h (by decide)⟩

theorem witness_SetkeyInstallsMaterial : ∃ s t : State, s.mode = .fast ∧ exec .setkey s = .next t :=
  ⟨State.reset, _, rfl, rfl⟩

theorem witness_EncWritesCiphertext :
    (∃ s : State, s.keyValid = false) ∧ ∃ s : State, s.keyValid = true ∧ HoldsKey s :=
  ⟨⟨State.reset, rfl⟩, keyedCore Config.standardBuild .fast, rfl, keyedCore_holdsKey _ _⟩

theorem witness_DecWritesPlaintext : ∃ s t u : State, s.keyValid = true ∧ HoldsKey s ∧
    exec .enc s = .next t ∧ exec .dec { t with dataIn := t.dataOut } = .next u :=
  ⟨keyedCore Config.standardBuild .fast, _, _, rfl, keyedCore_holdsKey _ _, rfl, rfl⟩

theorem witness_FaultWritesOnlyErr :
    (∃ s t : State, runCommand s = .next t ∧ t.err ≠ .ok) ∧
      ∃ (i : Instr) (s t : State), exec i s = .next t ∧ t.err ≠ .ok :=
  ⟨⟨{ State.reset with cmd := 0x60 }, _, rfl, by decide⟩, .enc, State.reset, _, rfl, by decide⟩

/-- Every fault code, and success, is reached by some command. -/
theorem witness_FaultCodesAndCauses : ∀ e : ErrCode, ∃ s t : State, runCommand s = .next t ∧ t.err = e
  | .ok => ⟨State.reset, _, rfl, rfl⟩
  | .illegalCmd => ⟨{ State.reset with cmd := 0xFF }, _, rfl, rfl⟩
  | .noKey => ⟨{ State.reset with cmd := 0x40 }, _, rfl, rfl⟩
  | .fastImplDisabled => ⟨{ State.resetOf Config.hardenedBuild with cmd := 0x10 }, _, rfl, rfl⟩

theorem witness_LifecycleOfKeyValid :
    (∃ (s : State) (rest : List HostEvent), s.host = .reset :: rest) ∧
      (∃ s t : State, exec .setkey s = .next t) ∧
      (∃ (s t : State) (m : Mode), exec (.cfg m) s = .next t ∧ t.err = .ok) ∧
      (∃ s t : State, exec .probe s = .next t) ∧
      (∃ (i : Instr) (s t : State), exec i s = .next t ∧ t.err ≠ .ok) ∧
      (∃ s t : State, runCommand s = .next t ∧ t.err ≠ .ok) ∧
      (∃ s t : State, exec .enc s = .next t ∧ t.err = .ok) ∧
      ∃ s t : State, exec .dec s = .next t ∧ t.err ≠ .ok :=
  ⟨⟨{ State.reset with host := [.reset] }, [], rfl⟩, ⟨State.reset, _, rfl⟩,
    ⟨State.reset, _, .hardened, rfl, rfl⟩, ⟨State.reset, _, rfl⟩,
    ⟨.cfg .fast, State.resetOf Config.hardenedBuild, _, rfl, by decide⟩,
    ⟨{ State.reset with cmd := 0x60 }, _, rfl, by decide⟩,
    ⟨keyedCore Config.standardBuild .fast, _, rfl, rfl⟩, State.reset, _, rfl, by decide⟩

theorem witness_RegistersWrittenOnlyByTheirCommands :
    ∃ s : State, ∀ i : Instr, ∃ t : State, exec i s = .next t :=
  ⟨keyedCore Config.standardBuild .fast, fun i => by rcases i with _ | (_ | _) | _ | _ | _ | _ <;> exact ⟨_, rfl⟩⟩

theorem witness_UnreadPortsIgnored : (∃ i : Instr, i ≠ .setkey) ∧ ∃ i : Instr, i ≠ .enc ∧ i ≠ .dec :=
  ⟨⟨.enc, by decide⟩, .setkey, by decide, by decide⟩

theorem witness_MaterialNotReadable :
    (∃ (i : Instr) (s : State), i = .enc ∧ (i = .enc ∨ i = .dec → s.keyValid = false)) ∧
      ∃ (i : Instr) (s : State), s.keyValid = true ∧ (i = .enc ∨ i = .dec → s.keyValid = false) :=
  ⟨⟨.enc, State.reset, rfl, fun _ => rfl⟩, .setkey, keyedCore Config.standardBuild .fast, rfl, by decide⟩

theorem witness_BitLoadStoreLaws : (∃ i j : Fin 96, j ≠ i) ∧ ∃ S T : Block, ∀ i, getBit S i = getBit T i :=
  ⟨⟨0, 95, by decide⟩, 1, 1, fun _ => rfl⟩

theorem witness_SboxIsBijective : ∃ a : Byte, a ≠ 0 := ⟨0xFF, by decide⟩

theorem witness_PaddingOfMessage :
    (∃ M : List Byte, M.length % 64 = 55) ∧ (∃ M : List Byte, M.length % 64 = 56) ∧
      (∃ M : List Byte, 0 < padZeros M.length) ∧ (∃ n j : Nat, n < 2 ^ 64 ∧ j < 8) ∧
      be64Bytes (2 ^ 64 - 1) = List.replicate 8 0xFF :=
  ⟨⟨List.replicate 55 0, rfl⟩, ⟨List.replicate 56 0, rfl⟩, ⟨[], by decide⟩, ⟨2 ^ 64 - 1, 7, by decide⟩,
    by decide⟩

theorem witness_HmacKeyRule :
    (∃ K : List Byte, 64 < K.length) ∧ (∃ K : List Byte, K.length < 64) ∧ ∃ K : List Byte, K.length = 64 :=
  ⟨⟨List.replicate 65 0, by decide⟩, ⟨List.replicate 63 0, by decide⟩, List.replicate 64 0, rfl⟩

theorem witness_PrimitiveBijectionsAndInverses :
    ∃ p : Fin 36, p ∈ ([20, 23, 26, 29, 30, 31, 32, 33, 34, 35] : List (Fin 36)) := ⟨35, by decide⟩

theorem witness_PermutationAlgebra : ∃ A B : Perm, PermBijective A ∧ PermBijective B ∧ A ≠ B :=
  ⟨primRom 2, primRom 18, half_turn_bijective, row_up_bijective, fun h =>
    absurd (congrArg (permAt · 0) h) (by decide +kernel)⟩

theorem witness_ComposeAndInvertEntries : ∃ P : Perm, PermBijective P := ⟨_, row_up_bijective⟩

theorem witness_ApplyMovesBits : ∃ P : Perm, PermBijective P := ⟨_, half_turn_bijective⟩

theorem witness_ApplyInvertCompose : ∃ A B : Perm, PermBijective A ∧ PermBijective B :=
  ⟨_, _, half_turn_bijective, row_up_bijective⟩

theorem witness_StagesActOnByteLanes : ∃ m : Material, m.rk[(0 : Fin 8)] = 0x5EEA711B1A0EC8953685234E :=
  ⟨roundZeroMaterial, by decide⟩

theorem witness_ModesAgree : ∃ (s : State) (m : Mode), HoldsKey s ∧ s.keyValid = true ∧ m ≠ s.mode :=
  ⟨keyedCore Config.standardBuild .fast, .hardened, keyedCore_holdsKey _ _, rfl, by decide⟩

theorem witness_OutputDependsOnKeyAndBlock : ∃ s t s' t' : State, s.keyValid = true ∧ t.keyValid = true ∧
    HoldsKey s ∧ s.material = t.material ∧ s.dataIn = t.dataIn ∧ s.mode ≠ t.mode ∧
    exec .enc s = .next s' ∧ exec .enc t = .next t' :=
  ⟨keyedCore Config.standardBuild .fast, keyedCore Config.standardBuild .hardened, _, _, rfl, rfl,
    keyedCore_holdsKey _ _, rfl, rfl, by decide, rfl, rfl⟩

theorem witness_ResetIsSafe : ∀ b : Build, b = Config.standardBuild ∨ b = Config.hardenedBuild →
    b.wf = true := by
  rintro b (rfl | rfl) <;> rfl

theorem witness_EveryStepKeepsSafe : ∃ s t : State, Safe s ∧ step s = .next t := ⟨_, _, reset_safe, rfl⟩

theorem witness_StatusValuesThatOccur :
    (∃ s : State, Safe s ∧ s.build.hasFast = true) ∧ ∃ s : State, Safe s ∧ s.build.hasFast = false :=
  ⟨⟨_, reset_safe, rfl⟩, _, hardenedCore_safe, rfl⟩

theorem witness_KeyedTablesAreInverse : ∃ s : State, Safe s ∧ s.keyValid = true := ⟨_, keyedCore_safe, rfl⟩

/-! ### Textual form (30_encoding.md R87) -/

theorem test_text_lines :
    textEvent 1 2 ['C', 'F', 'G', ' ', 'H', 'A', 'R', 'D', ' ', ';', 'x'] =
        some (.command { cmd := 0x11, keyIn := 1, dataIn := 2 }) ∧
      textEvent 1 2 ['R', 'E', 'S', 'E', 'T'] = some .reset ∧
      textEvent 1 2 ['E', 'N', 'C'] = none := by decide

/-- 30_encoding.md R87: the operand of each line, with digits of both cases, on the port it names. -/
theorem test_text_operands :
    textEvent 1 2 (['S', 'E', 'T', 'K', 'E', 'Y', ' ', '8'] ++ List.replicate 22 '0' ++ ['c']) =
        some (.command { cmd := 0x20, keyIn := 0x80000000000000000000000C, dataIn := 2 }) ∧
      textEvent 1 2 (['E', 'N', 'C', ' ', '8'] ++ List.replicate 22 '0' ++ ['C']) =
        some (.command { cmd := 0x30, keyIn := 1, dataIn := 0x80000000000000000000000C }) ∧
      textEvent 1 2 (['D', 'E', 'C', ' ', '8'] ++ List.replicate 22 '0' ++ ['c']) =
        some (.command { cmd := 0x40, keyIn := 1, dataIn := 0x80000000000000000000000C }) := by decide +kernel

theorem witness_TextLinesWriteEvents :
    (∃ (B : Block) (w : List Char), Sys2Proof.Certificates.WritesBlock B w) ∧
      (∃ w : List Char, w.length ≠ 24 ∧ ' ' ∉ w ∧ ';' ∉ w) ∧
      ∃ w : List Char, 24 < w.length ∧ ' ' ∉ w ∧ ';' ∉ w :=
  ⟨⟨0x80000000000000000000000C, ['8'] ++ List.replicate 22 '0' ++ ['c'], rfl, by
      unfold Certificates.WritesDigit; decide +kernel⟩,
    ⟨List.replicate 23 '0', by decide⟩, List.replicate 25 '0', by decide⟩

end Sys2Proof.Tests
end

section
/-! PROOFS. The state after reset and the byte `STATUS` (10_state.md R34, R42): the fields of `STATUS`, that no
command reads the old `ERR`, the next event of the host, ENC and DEC without a key. -/

namespace Sys2Proof.Machine

section
variable (s : State)

/-! ### The fields of STATUS (10_state.md R34) -/

@[simp] theorem State.status_err : s.status.extractLsb' 0 4 = s.err.code :=
  BitVec.extractLsb'_append_eq_right

@[simp] theorem State.status_keyValid : s.status.getLsbD 4 = s.keyValid := by
  rw [State.status, BitVec.getLsbD_append, BitVec.getLsbD_append]
  simp

@[simp] theorem State.status_mode : s.status.getLsbD 5 = true ↔ s.mode = .hardened := by
  rw [State.status, BitVec.getLsbD_append, BitVec.getLsbD_append, BitVec.getLsbD_append]
  cases s.mode <;> simp [modeBit]

@[simp] theorem State.status_top : s.status.extractLsb' 6 2 = 0 := by
  rw [State.status, BitVec.extractLsb'_append_eq_of_le (by decide),
    BitVec.extractLsb'_append_eq_of_le (by decide), BitVec.extractLsb'_append_eq_of_le (by decide)]
  exact BitVec.extractLsb'_eq_self

/-- With no key and no fault only the mode bit is left of `STATUS` (10_state.md R42). -/
theorem State.status_of_unkeyed_ok (hk : s.keyValid = false) (he : s.err = .ok) :
    s.status = (modeBit s.mode).setWidth 8 <<< 5 := by
  cases hm : s.mode <;> simp [State.status, modeBit, ErrCode.code, hm, hk, he]

/-! ### No command reads the old `ERR`: each of its ends writes it -/

/-- A guard reads only `KEY_VALID`, or the asked mode and the build, and both of its outcomes overwrite `ERR`: the
two sides unfold to the same term. -/
theorem exec_setErr (i : Instr) (e : ErrCode) : exec i (s.setErr e) = exec i s := by
  cases i with
  | nop | cfg | setkey | enc | dec | probe => rfl

theorem runCommand_setErr (e : ErrCode) : runCommand (s.setErr e) = runCommand s := by
  simp only [runCommand, State.setErr_cmd]
  cases decode s.cmd with
  | ok i => exact exec_setErr s i e
  | error _ => rfl

end

section
variable {s : State}

/-! ### The next event of the host -/

theorem step_of_host_cons {e : HostEvent} {rest : List HostEvent} (h : s.host = e :: rest) :
    step s = runEvent e { s with host := rest } := by
  simp only [step, h]

theorem step_of_reset {rest : List HostEvent} (h : s.host = .reset :: rest) :
    step s = .next (State.takeReset { s with host := rest }) :=
  step_of_host_cons h

/-! ### ENC and DEC without a key (60_exceptions.md R303) -/

theorem exec_enc_of_unkeyed (hk : s.keyValid = false) : exec .enc s = .next (s.setErr .noKey) :=
  if_pos hk

theorem exec_dec_of_unkeyed (hk : s.keyValid = false) : exec .dec s = .next (s.setErr .noKey) :=
  if_pos hk

end

/-! ### The obligations -/

/-- Settles O10: `resetOf` and `takeReset` both leave an unkeyed core without a fault, so `status_of_unkeyed_ok`
gives its `STATUS`. -/
theorem resetValues : Obligations.ResetValues := by
  unfold Obligations.ResetValues
  refine ⟨fun b => ?_, fun s rest h => ?_, fun s hk => ?_⟩
  · exact ⟨rfl, rfl, rfl, rfl, State.status_of_unkeyed_ok (State.resetOf b) rfl rfl⟩
  · exact ⟨_, step_of_reset h, rfl, rfl, rfl, rfl, State.status_of_unkeyed_ok _ rfl rfl, rfl⟩
  · exact ⟨exec_enc_of_unkeyed hk, exec_dec_of_unkeyed hk⟩

/-- Settles O20: each field of `STATUS` by its lemma, and `ERR` by `runCommand_setErr`. -/
theorem statusByteLayout : Obligations.StatusByteLayout := by
  unfold Obligations.StatusByteLayout
  exact ⟨fun s => ⟨s.status_err, s.status_keyValid, s.status_mode, s.status_top⟩, runCommand_setErr⟩

end Sys2Proof.Machine
end

section
/-! PROOFS. The partition of `OKM` (20_memory.md R55): lengths of the HKDF outputs, bytes of a Block and of a seed
cut from a byte string, and the fields of the cut. -/

namespace Sys2Proof.Machine

/-! ### Lengths of the HKDF outputs (42_keyschedule.md R160, R166, R167) -/

@[simp] theorem hmac_length (Kh M : List Byte) : (hmac Kh M).length = 32 := sha256_length _

@[simp] theorem hkdfBlocks_length (prk : List Byte) (n i : Nat) (prev : List Byte) :
    (hkdfBlocks prk n i prev).length = 32 * n := by
  induction n generalizing i prev with
  | zero => rfl
  | succ n ih =>
    rw [hkdfBlocks, List.length_append, hmac_length, ih]
    omega

/-- Six blocks hold 192 bytes, of which `OKM` keeps 172. -/
@[simp] theorem hkdfOkm_length (key : List Byte) : (hkdfOkm key).length = 172 := by
  rw [hkdfOkm, List.length_take, hkdfBlocks_length]
  rfl

/-! ### Bytes of a cut -/

section
variable (bytes : List Byte)

@[simp] theorem blockByte_blockAt (o : Nat) (k : Fin 12) :
    blockByte (blockAt bytes o) k = bytes.getD (o + k) 0 := blockByte_blockOf _ k

@[simp] theorem seedByte_seedAt (o : Nat) (j : Fin 8) :
    seedByte (seedAt bytes o) j = bytes.getD (o + j) 0 := seedByte_seedOf _ j

theorem cutOkm_rk (r : Fin 8) : (cutOkm bytes).rk[r] = blockAt bytes (12 * r) :=
  Vector.getElem_ofFn r.isLt

theorem cutOkm_ps (r : Fin 8) : (cutOkm bytes).ps[r] = seedAt bytes (96 + 8 * r) :=
  Vector.getElem_ofFn r.isLt

@[simp] theorem cutOkm_post : (cutOkm bytes).post = blockAt bytes 160 := rfl

end

/-- Inside the byte string the filler 0 of `blockAt` and `seedAt` is never read. -/
theorem getElem?_eq_some_getD {bytes : List Byte} {n : Nat} (h : n < bytes.length) :
    bytes[n]? = some (bytes.getD n 0) := by
  rw [List.getD_eq_getElem _ _ h, List.getElem?_eq_getElem h]

/-! ### The obligation -/

/-- Settles O38: each byte of `RK`, `PS` and `POST` is the byte its cut reads, and `12r + k`, `96 + 8r + j` and
`160 + k` all stay below the 172 bytes of `OKM`. -/
theorem okmPartition : Obligations.OkmPartition := by
  unfold Obligations.OkmPartition
  intro key
  have hlen : (hkdfOkm (blockBytes key)).length = 172 := hkdfOkm_length _
  refine ⟨_, rfl, hlen, fun r k => ?_, fun r j => ?_, fun k => ?_⟩
  · rw [deriveMaterial, cutOkm_rk, blockByte_blockAt]
    exact getElem?_eq_some_getD (by omega)
  · rw [deriveMaterial, cutOkm_ps, seedByte_seedAt]
    exact getElem?_eq_some_getD (by omega)
  · rw [deriveMaterial, cutOkm_post, blockByte_blockAt]
    exact getElem?_eq_some_getD (by omega)

end Sys2Proof.Machine
end

section
/-! PROOFS. The decoder (30_encoding.md R81 to R85): the fields of a byte, what the decoder can answer, the legal
bytes as the bytes of the commands, and the match-and-mask rows. -/

namespace Sys2Proof

open Certificates

section
variable {b : Byte} {i : Instr}

/-! ### The fields of a command byte (R81) -/

@[simp] theorem fieldsOf_op_toNat : (fieldsOf b).op.toNat = b.toNat / 16 := by
  have hb : b.toNat < 256 := b.isLt
  simp only [fieldsOf, BitVec.extractLsb'_toNat, Nat.shiftRight_eq_div_pow]
  omega

@[simp] theorem fieldsOf_rsv_toNat : (fieldsOf b).rsv.toNat = b.toNat / 2 % 8 := by
  simp only [fieldsOf, BitVec.extractLsb'_toNat, Nat.shiftRight_eq_div_pow, Nat.pow_one, Nat.reducePow]

@[simp] theorem fieldsOf_m_toNat : (fieldsOf b).m.toNat = b.toNat % 2 := by
  simp only [fieldsOf, BitVec.extractLsb'_toNat, Nat.shiftRight_eq_div_pow, Nat.pow_one, Nat.pow_zero, Nat.div_one]

/-- The three fields are all eight bits of the byte. -/
@[simp] theorem byteOf_fieldsOf (b : Byte) : byteOf (fieldsOf b) = b := by
  simp only [byteOf, fieldsOf]
  rw [BitVec.extractLsb'_append_extractLsb'_eq_extractLsb' (by decide),
    BitVec.extractLsb'_append_extractLsb'_eq_extractLsb' (by decide)]
  exact BitVec.extractLsb'_eq_self

/-- The fields are ill formed exactly in the three cases of R85, read off the byte's value. -/
theorem fieldsOf_wf_eq_false_iff : (fieldsOf b).wf = false ↔
    (6 ≤ b.toNat / 16 ∨ b.toNat / 2 % 8 ≠ 0 ∨ (b.toNat % 2 = 1 ∧ b.toNat / 16 ≠ 1)) := by
  simp only [CommandFields.wf, CommandFields.opAssigned, CommandFields.rsvZero, CommandFields.modeBitOk,
    Bool.and_eq_false_iff, Bool.or_eq_false_iff, decide_eq_false_iff_not, beq_eq_false_iff_ne, ne_eq,
    ← BitVec.toNat_inj, fieldsOf_op_toNat, fieldsOf_rsv_toNat, fieldsOf_m_toNat, BitVec.reduceToNat]
  omega

/-! ### What the decoder can answer, said once (R82, R85) -/

theorem modeBit_modeOfBit (m : BitVec 1) : modeBit (modeOfBit m) = m := by
  revert m
  decide

/-- Outside CFG the opcode alone says which command well-formed fields are. -/
theorem CommandFields.eq_of_op {f : CommandFields} (hrsv : ¬f.rsvZero = false) (hm : ¬f.modeBitOk = false)
    {op : BitVec 4} (hop : f.op.toNat = op.toNat) (hne : op ≠ 1) : f = ⟨op, 0, 0⟩ := by
  obtain ⟨o, r, m⟩ := f
  obtain rfl : o = op := BitVec.eq_of_toNat_eq hop
  simp_all [CommandFields.rsvZero, CommandFields.modeBitOk]

/-- In CFG `m` is free, and names the mode. -/
theorem CommandFields.eq_cfg_of_op {f : CommandFields} (hrsv : ¬f.rsvZero = false) (hop : f.op.toNat = 1) :
    f = (Instr.cfg (modeOfBit f.m)).fields := by
  obtain ⟨o, r, m⟩ := f
  obtain rfl : o = 1 := BitVec.eq_of_toNat_eq hop
  simp_all [CommandFields.rsvZero, Instr.fields, modeBit_modeOfBit]

/-- Everything the decoder can answer: it rejects ill-formed fields, or they are the fields of its answer. -/
theorem decode_cases (b : Byte) :
    ((∃ e, decode b = .error e) ∧ (fieldsOf b).wf = false) ∨
      ∃ i, decode b = .ok i ∧ fieldsOf b = i.fields := by
  simp only [decode]
  generalize fieldsOf b = f
  split_ifs with hop hrsv hm
  · exact .inl ⟨⟨_, rfl⟩, by simp [CommandFields.wf, hop]⟩
  · exact .inl ⟨⟨_, rfl⟩, by simp [CommandFields.wf, hrsv]⟩
  · exact .inl ⟨⟨_, rfl⟩, by simp [CommandFields.wf, hm]⟩
  right
  split
  next h => exact ⟨.nop, rfl, f.eq_of_op hrsv hm h (by decide)⟩
  next h => exact ⟨_, rfl, f.eq_cfg_of_op hrsv h⟩
  next h => exact ⟨.setkey, rfl, f.eq_of_op hrsv hm h (by decide)⟩
  next h => exact ⟨.enc, rfl, f.eq_of_op hrsv hm h (by decide)⟩
  next h => exact ⟨.dec, rfl, f.eq_of_op hrsv hm h (by decide)⟩
  next h => exact ⟨.probe, rfl, f.eq_of_op hrsv hm h (by decide)⟩
  next h0 h1 h2 h3 h4 h5 =>
    simp only [CommandFields.opAssigned, decide_eq_false_iff_not, not_not] at hop
    simp only [imp_false] at h0 h1 h2 h3 h4 h5
    omega

theorem fieldsOf_of_decode (h : decode b = .ok i) : fieldsOf b = i.fields := by
  obtain ⟨⟨e, he⟩, -⟩ | ⟨j, hj, hf⟩ := decode_cases b
  · simp [he] at h
  · rw [hj] at h
    rw [hf, Except.ok.inj h]

/-- Each command's byte is well formed and fits its row, from the lemma per command. -/
theorem encodingFitsRow : ∀ i : Instr, Laws.EncodingFitsRow.Statement i
  | .nop => Laws.EncodingFitsRow.nop
  | .cfg m => Laws.EncodingFitsRow.cfg m
  | .setkey => Laws.EncodingFitsRow.setkey
  | .enc => Laws.EncodingFitsRow.enc
  | .dec => Laws.EncodingFitsRow.dec
  | .probe => Laws.EncodingFitsRow.probe

theorem exists_decode_error_iff : (∃ e, decode b = .error e) ↔ (fieldsOf b).wf = false := by
  obtain ⟨he, hwf⟩ | ⟨i, hi, hf⟩ := decode_cases b
  · exact iff_of_true he hwf
  · have hwf : i.fields.wf = true := (encodingFitsRow i).1
    simp [hi, hf, hwf]

theorem decode_encode (i : Instr) : decode (encode i) = .ok i := by
  cases i with
  | cfg m => cases m <;> rfl
  | nop | setkey | enc | dec | probe => rfl

/-- A byte decodes to a command exactly when it is that command's byte. -/
theorem decode_eq_ok_iff : decode b = .ok i ↔ b = encode i := by
  refine ⟨fun h => ?_, fun h => h ▸ decode_encode i⟩
  rw [encode, ← fieldsOf_of_decode h, byteOf_fieldsOf]

/-! ### The legal bytes (R83) -/

/-- The seven legal bytes are the bytes of the commands. -/
theorem mem_legalBytes_iff : b ∈ legalBytes ↔ ∃ i, b = encode i := by
  constructor
  · simp only [legalBytes, List.mem_cons, List.not_mem_nil, or_false]
    rintro (rfl | rfl | rfl | rfl | rfl | rfl | rfl)
    exacts [⟨.nop, rfl⟩, ⟨.cfg .fast, rfl⟩, ⟨.cfg .hardened, rfl⟩, ⟨.setkey, rfl⟩, ⟨.enc, rfl⟩, ⟨.dec, rfl⟩,
      ⟨.probe, rfl⟩]
  · rintro ⟨i, rfl⟩
    cases i with
    | cfg m => cases m <;> decide
    | nop | setkey | enc | dec | probe => decide

theorem exists_decode_ok_iff_mem_legalBytes : (∃ i, decode b = .ok i) ↔ b ∈ legalBytes := by
  simp only [decode_eq_ok_iff, mem_legalBytes_iff]

theorem decode_isNone_iff : (decode b).toOption.isNone = true ↔ b ∉ legalBytes := by
  rw [← exists_decode_ok_iff_mem_legalBytes]
  cases decode b <;> simp [Except.toOption]

/-! ### The match-and-mask rows (R83) -/

theorem MatchRow.fits_iff {r : MatchRow} : r.fits b = true ↔ b &&& r.mask = r.pattern := beq_iff_eq

/-- Every mask compares bits 7:1 and no pattern sets bit 0, so a fitting byte gives its row's pattern. -/
theorem pattern_of_fits {r : MatchRow} (hr : r ∈ matchRows) (h : r.fits b = true) :
    r.pattern = b &&& 0xFE := by
  have hmask : ∀ r ∈ matchRows, r.mask &&& 0xFE = 0xFE ∧ r.pattern &&& 0xFE = r.pattern := by decide
  obtain ⟨hm, hp⟩ := hmask r hr
  rw [← hp, ← MatchRow.fits_iff.mp h, BitVec.and_assoc, hm]

/-- No two rows have the same pattern, so a byte fits at most one row. -/
theorem row_unique_of_fits {j k : Nat} {q r : MatchRow} (hj : matchRows[j]? = some q)
    (hk : matchRows[k]? = some r) (hq : q.fits b = true) (hr : r.fits b = true) : j = k := by
  have hnodup : (matchRows.map MatchRow.pattern).Nodup := by decide
  have hpat : q.pattern = r.pattern :=
    (pattern_of_fits (List.mem_of_getElem? hj) hq).trans (pattern_of_fits (List.mem_of_getElem? hk) hr).symm
  have hlt : j < (matchRows.map MatchRow.pattern).length := by
    rw [List.length_map]
    exact (List.getElem?_eq_some_iff.mp hj).1
  exact (List.getElem?_inj hlt hnodup).mp (by simp [hj, hk, hpat])

theorem fits_encode_iff {k : Nat} {r : MatchRow} (hk : matchRows[k]? = some r) :
    r.fits (encode i) = true ↔ k = rowOf i := by
  obtain ⟨-, q, hq, hfits⟩ := encodingFitsRow i
  refine ⟨fun h => row_unique_of_fits hk hq h hfits, ?_⟩
  rintro rfl
  rwa [Option.some.inj (hk.symm.trans hq)]

/-- The mask of every row but CFG's compares all eight bits. -/
theorem and_fullMask (b : Byte) : b &&& 0xFF = b := BitVec.and_allOnes

/-- CFG's mask leaves bit 0 open: one byte per mode. -/
theorem eq_of_and_modeMask : ∀ {b : Byte}, b &&& 0xFE = 0x10 → b = 0x10 ∨ b = 0x11 := by
  decide

theorem mem_legalBytes_of_fits {r : MatchRow} (hr : r ∈ matchRows) (h : r.fits b = true) : b ∈ legalBytes := by
  rw [MatchRow.fits_iff] at h
  simp only [matchRows, List.mem_cons, List.not_mem_nil, or_false] at hr
  rcases hr with rfl | rfl | rfl | rfl | rfl | rfl
  case inr.inl =>
    obtain rfl | rfl := eq_of_and_modeMask h
    · decide
    · decide
  all_goals
    rw [and_fullMask] at h
    rw [h]
    decide

theorem exists_decode_ok_iff_fits : (∃ i, decode b = .ok i) ↔ ∃ r ∈ matchRows, r.fits b = true := by
  constructor
  · rintro ⟨i, hi⟩
    obtain ⟨-, r, hr, hfits⟩ := encodingFitsRow i
    exact ⟨r, List.mem_of_getElem? hr, decode_eq_ok_iff.mp hi ▸ hfits⟩
  · rintro ⟨r, hr, h⟩
    exact exists_decode_ok_iff_mem_legalBytes.mpr (mem_legalBytes_of_fits hr h)

end

end Sys2Proof

namespace Sys2Proof.Machine

/-- An illegal byte writes `ERR` and nothing else (30_encoding.md R85, 60_exceptions.md R305). -/
theorem runCommand_of_decode_error {s : State} {e : IllegalCommand} (h : decode s.cmd = .error e) :
    runCommand s = .next (s.setErr .illegalCmd) := by
  rw [runCommand, h, raiseFault_eq]

/-! ### The obligations -/

/-- Settles O3: a byte that decodes is its command's byte, each command's byte fits its own row, rows have
distinct patterns, and the legal bytes are the commands' bytes. -/
theorem decoderFollowsMaskTable : Obligations.DecoderFollowsMaskTable := by
  unfold Obligations.DecoderFollowsMaskTable
  refine ⟨rfl, fun r b => MatchRow.fits_iff, fun b i hi k r hk => ?_, fun b => exists_decode_ok_iff_fits,
    fun b => exists_decode_ok_iff_mem_legalBytes, ?_⟩
  · rw [decode_eq_ok_iff.mp hi]
    exact fits_encode_iff hk
  · have hreject : ∀ n ∈ List.range 256, (decode (BitVec.ofNat 8 n)).toOption.isNone =
        decide (BitVec.ofNat 8 n ∉ Certificates.legalBytes) := fun n _ => by
      rw [Bool.eq_iff_iff, decode_isNone_iff, decide_eq_true_iff]
    rw [List.filter_congr hreject]
    decide +kernel

/-- Settles O4: the decoder rejects exactly the ill-formed fields, and the byte of a command is its only
encoding. -/
theorem illegalBytesRefused : Obligations.IllegalBytesRefused := by
  unfold Obligations.IllegalBytesRefused
  refine ⟨fun b => ?_, fun s e he => runCommand_of_decode_error he, rfl, fun b c i hb hc => ?_⟩
  · rw [exists_decode_error_iff, fieldsOf_wf_eq_false_iff]
  · rw [decode_eq_ok_iff.mp hb, decode_eq_ok_iff.mp hc]

end Sys2Proof.Machine
end

section
/-! PROOFS. The state and bit-index unit (40_bitindex.md R101 to R109): the numbering of the cells, the byte and the
offset of an index, the store of one bit into a byte, and the bit load after a bit store. -/

namespace Sys2Proof.Machine

/-! ### The numbering of the cells (R101, R108) -/

@[simp] theorem idxOf_val (c : Cell) : (idxOf c).val = 16 * c.z.val + 4 * c.y.val + c.x.val := rfl

@[simp] theorem cellOf_x_val (i : Fin 96) : (cellOf i).x.val = i.val % 4 := rfl

@[simp] theorem cellOf_y_val (i : Fin 96) : (cellOf i).y.val = i.val % 16 / 4 := rfl

@[simp] theorem cellOf_z_val (i : Fin 96) : (cellOf i).z.val = i.val / 16 := rfl

@[simp] theorem cellOf_idxOf (c : Cell) : cellOf (idxOf c) = c := by
  obtain ⟨⟨x, hx⟩, ⟨y, hy⟩, ⟨z, hz⟩⟩ := c
  simp only [cellOf, idxOf, Cell.mk.injEq, Fin.mk.injEq]
  omega

@[simp] theorem idxOf_cellOf (i : Fin 96) : idxOf (cellOf i) = i := by
  apply Fin.ext
  rw [idxOf_val, cellOf_x_val, cellOf_y_val, cellOf_z_val]
  omega

theorem idxOf_bijective : Function.Bijective idxOf :=
  Function.bijective_iff_has_inverse.mpr ⟨cellOf, cellOf_idxOf, idxOf_cellOf⟩

/-! ### The byte and the offset of an index (R103 to R105) -/

/-- 16 is a multiple of 8, so the two parts of R103's formula are one division. -/
theorem byteIndexOfBit_val (i : Fin 96) : (byteIndexOfBit i).val = i.val / 8 := by
  simp only [byteIndexOfBit]
  omega

theorem bitOffsetInByte_val (i : Fin 96) : (bitOffsetInByte i).val = 7 - i.val % 8 := by
  simp only [bitOffsetInByte]
  omega

/-- An index is determined by its byte and its offset. -/
theorem bitPosition_injective {i j : Fin 96} (hbyte : byteIndexOfBit i = byteIndexOfBit j)
    (hoff : bitOffsetInByte i = bitOffsetInByte j) : i = j := by
  rw [Fin.ext_iff, byteIndexOfBit_val, byteIndexOfBit_val] at hbyte
  rw [Fin.ext_iff, bitOffsetInByte_val, bitOffsetInByte_val] at hoff
  omega

/-- The index of offset `o` of byte `k`. -/
theorem bitPosition_of_byte_offset (k : Fin 12) (o : Fin 8) (h : 8 * k.val + 7 - o.val < 96) :
    byteIndexOfBit ⟨8 * k.val + 7 - o.val, h⟩ = k ∧ bitOffsetInByte ⟨8 * k.val + 7 - o.val, h⟩ = o := by
  rw [Fin.ext_iff, Fin.ext_iff, byteIndexOfBit_val, bitOffsetInByte_val, Fin.val_mk]
  omega

/-! ### One bit of a byte -/

/-- The low `n` bits of a number, each at its weight. -/
theorem mod_two_pow_eq_sum_testBit (x n : Nat) :
    x % 2 ^ n = ∑ o : Fin n, (x.testBit o).toNat * 2 ^ o.val := by
  induction n with
  | zero => simp [Nat.mod_one]
  | succ n ih =>
    rw [Fin.sum_univ_castSucc, Nat.mod_pow_succ, ih, ← Nat.toNat_testBit, Nat.mul_comm (2 ^ n)]
    rfl

theorem toNat_eq_sum_getLsbD {w : Nat} (v : BitVec w) :
    v.toNat = ∑ o : Fin w, (v.getLsbD o).toNat * 2 ^ o.val := by
  rw [← Nat.mod_eq_of_lt v.isLt, mod_two_pow_eq_sum_testBit]
  rfl

/-- A bit shifted to offset `o` of a byte stands there, with zeros around it. -/
theorem shiftedBit_getLsbD (b : Bool) (o p : Fin 8) :
    ((BitVec.ofBool b).setWidth 8 <<< o.val).getLsbD p = (decide (p = o) && b) := by
  rw [BitVec.getLsbD_shiftLeft, BitVec.getLsbD_setWidth, BitVec.getLsbD_ofBool, Bool.eq_iff_iff]
  cases b with
  | false => simp
  | true =>
    simp only [Bool.and_eq_true, Bool.not_eq_true', decide_eq_true_iff, decide_eq_false_iff_not, Fin.ext_iff,
      and_true]
    omega

/-- The read-modify-write of R107 on a byte: the cleared bit takes the new value, every other bit stays. -/
theorem storedByte_getLsbD (v : Byte) (b : Bool) (o p : Fin 8) :
    ((v &&& ~~~((1 : Byte) <<< o.val)) ||| ((BitVec.ofBool b).setWidth 8 <<< o.val)).getLsbD p =
      if p = o then b else v.getLsbD p := by
  have hone : (1 : Byte) = (BitVec.ofBool true).setWidth 8 := rfl
  rw [BitVec.getLsbD_or, BitVec.getLsbD_and, BitVec.getLsbD_not, hone, shiftedBit_getLsbD, shiftedBit_getLsbD]
  by_cases h : p = o <;> simp [h]

/-! ### Bit load and store (R106, R107) -/

/-- The bit load reads one bit of one byte. -/
theorem getBit_eq_blockByte_getLsbD (S : Block) (i : Fin 96) :
    getBit S i = (blockByte S (byteIndexOfBit i)).getLsbD (bitOffsetInByte i) := by
  simp [getBit]

theorem getBit_of_byte_offset (S : Block) (k : Fin 12) (o : Fin 8) (h : 8 * k.val + 7 - o.val < 96) :
    getBit S ⟨8 * k.val + 7 - o.val, h⟩ = (blockByte S k).getLsbD o := by
  obtain ⟨hbyte, hoff⟩ := bitPosition_of_byte_offset k o h
  rw [getBit_eq_blockByte_getLsbD, hbyte, hoff]

/-- The bit load after a bit store: in another byte `blockByte_setBlockByte` leaves it, in the same byte
`storedByte_getLsbD` does unless the offset is the same too. -/
theorem getBit_setBit (S : Block) (i j : Fin 96) (b : Bool) :
    getBit (setBit S i b) j = if j = i then b else getBit S j := by
  rw [getBit_eq_blockByte_getLsbD, getBit_eq_blockByte_getLsbD, setBit, blockByte_setBlockByte]
  by_cases hbyte : byteIndexOfBit j = byteIndexOfBit i
  · have hoff : bitOffsetInByte j = bitOffsetInByte i ↔ j = i :=
      ⟨bitPosition_injective hbyte, fun h => h ▸ rfl⟩
    rw [if_pos hbyte, storedByte_getLsbD, hbyte]
    simp only [hoff]
  · have hne : j ≠ i := fun h => hbyte (h ▸ rfl)
    rw [if_neg hbyte, if_neg hne]

@[simp] theorem getBit_setBit_same (S : Block) (i : Fin 96) (b : Bool) : getBit (setBit S i b) i = b := by
  rw [getBit_setBit, if_pos rfl]

theorem getBit_setBit_other (S : Block) {i j : Fin 96} (b : Bool) (h : j ≠ i) :
    getBit (setBit S i b) j = getBit S j := by
  rw [getBit_setBit, if_neg h]

/-- The 96 bits give every bit of every byte. -/
theorem block_eq_of_bits {S T : Block} (h : ∀ i, getBit S i = getBit T i) : S = T := by
  refine block_eq_of_bytes fun k => BitVec.eq_of_getLsbD_eq fun o ho => ?_
  have hbit := h ⟨8 * k.val + 7 - o, by omega⟩
  rwa [getBit_of_byte_offset S k ⟨o, ho⟩, getBit_of_byte_offset T k ⟨o, ho⟩] at hbit

/-- A byte is the sum of the bits at its offsets. -/
theorem blockByte_toNat_eq_sum_getBit (S : Block) (k : Fin 12) : (blockByte S k).toNat =
    ∑ o : Fin 8, (getBit S ⟨8 * k.val + 7 - o.val, by omega⟩).toNat * 2 ^ o.val := by
  simp only [getBit_of_byte_offset]
  exact toNat_eq_sum_getLsbD _

/-! ### The obligations -/

/-- Settles O28: the load after a store, and each byte and the Block read off the bits at the eight offsets. -/
theorem bitLoadStoreLaws : Obligations.BitLoadStoreLaws := by
  unfold Obligations.BitLoadStoreLaws
  exact ⟨getBit_setBit_same, fun S _ _ b h => getBit_setBit_other S b h, fun _ _ => block_eq_of_bits,
    blockByte_toNat_eq_sum_getBit⟩

/-- Settles O26: `cellOf` is a two-sided inverse of `idxOf`. -/
theorem cellsAreNumbered : Obligations.CellsAreNumbered := by
  unfold Obligations.CellsAreNumbered
  exact ⟨idxOf_val, fun i => ⟨cellOf_z_val i, cellOf_y_val i, cellOf_x_val i⟩, cellOf_idxOf, idxOf_cellOf,
    idxOf_bijective, rfl, rfl, rfl⟩

/-- Settles O27: R103's formulas are one division and one remainder by 8, read at `16z + 4y + x` for a cell. -/
theorem bitPositions : Obligations.BitPositions := by
  unfold Obligations.BitPositions
  refine ⟨fun i => ⟨rfl, rfl, byteIndexOfBit_val i, bitOffsetInByte_val i⟩, fun c => ?_⟩
  rw [byteIndexOfBit_val, bitOffsetInByte_val, idxOf_val]
  omega

end Sys2Proof.Machine
end

section
/-! PROOFS. The S-box (41_sbox.md). The product of GF(2^8) is a masked sum of multiples by powers of x, hence linear
in its right operand and associative; so powers obey the law of exponents, and both inversion circuits, R122's product of
squares and R129's chain, are the power 254. The ROMs are compared with the definition entry by entry. -/

namespace Sys2Proof.Machine

/-! ### Masked sums -/

/-- The XOR of `f j` over the `j < n` with `c j`: the common form of the two products, R121 and R128. -/
def xorOver (c : Nat → Bool) (f : Nat → Byte) : Nat → Byte
  | 0 => 0
  | n + 1 => xorOver c f n ^^^ if c n then f n else 0

section
variable (c d : Nat → Bool) (f : Nat → Byte) (n : Nat)

/-- An additive map goes under the sum. -/
theorem map_xorOver {h : Byte → Byte} (h0 : h 0 = 0) (hadd : ∀ a b, h (a ^^^ b) = h a ^^^ h b) :
    h (xorOver c f n) = xorOver c (fun j => h (f j)) n := by
  induction n with
  | zero => exact h0
  | succ n ih => rw [xorOver, xorOver, hadd, ih, apply_ite h, h0]

theorem xorOver_mask_xor :
    xorOver (fun j => c j ^^ d j) f n = xorOver c f n ^^^ xorOver d f n := by
  induction n with
  | zero => simp [xorOver]
  | succ n ih =>
    have hterm : (if c n ^^ d n then f n else 0) = (if c n then f n else 0) ^^^ (if d n then f n else 0) := by
      cases c n <;> cases d n <;> simp
    simp only [xorOver, ih, hterm]
    ac_rfl

/-- The first term split off; the others move down by one. -/
theorem xorOver_succ_left :
    xorOver c f (n + 1) = (if c 0 then f 0 else 0) ^^^ xorOver (fun j => c (j + 1)) (fun j => f (j + 1)) n := by
  induction n with
  | zero => simp [xorOver]
  | succ n ih => rw [xorOver, ih, xorOver, BitVec.xor_assoc]

end

section
variable (a b v : Byte)

/-! ### Multiplication by powers of x (R121, R127) -/

theorem xtime_eq_shift_xor : xtime a = (a <<< 1) ^^^ if a.getLsbD 7 then 0x1B else 0 := by
  rw [xtime]
  split <;> simp

theorem xtime_xor : xtime (a ^^^ b) = xtime a ^^^ xtime b := by
  have hmask : (if (a ^^^ b).getLsbD 7 then (0x1B : Byte) else 0) =
      (if a.getLsbD 7 then 0x1B else 0) ^^^ (if b.getLsbD 7 then 0x1B else 0) := by
    rw [BitVec.getLsbD_xor]
    cases a.getLsbD 7 <;> cases b.getLsbD 7 <;> rfl
  simp only [xtime_eq_shift_xor, hmask, BitVec.shiftLeft_xor_distrib]
  ac_rfl

/-- `spread` reads bit 0 alone (R127). -/
theorem spread_eq_ite : spread b = if b.getLsbD 0 then 0xFF else 0x00 := by
  revert b
  decide

theorem and_spread_shift (j : Nat) : a &&& spread (b >>> j) = if b.getLsbD j then a else 0 := by
  rw [spread_eq_ite, BitVec.getLsbD_ushiftRight, Nat.add_zero]
  split
  · exact BitVec.and_allOnes
  · exact BitVec.and_zero

theorem ctXtime_eq_xtime : ctXtime a = xtime a :=
  (congrArg ((a <<< 1) ^^^ ·) (and_spread_shift 0x1B a 7)).trans (xtime_eq_shift_xor a).symm

/-! ### The product as a masked sum (R121, R128) -/

theorem gmul_eq_xorOver : gmul a b = xorOver b.getLsbD (fun j => xtimes j a) 8 := by
  have hloop (n : Nat) : (List.range n).foldl (fun p j => if b.getLsbD j then p ^^^ xtimes j a else p) 0 =
      xorOver b.getLsbD (fun j => xtimes j a) n := by
    induction n with
    | zero => rfl
    | succ n ih =>
      rw [List.range_succ, List.foldl_append, ih, List.foldl_cons, List.foldl_nil, xorOver]
      split <;> simp
  exact hloop 8

/-- The loop of R128 holds the partial sum and the running multiple of `a`. -/
theorem ctGmul_eq_gmul : ctGmul a b = gmul a b := by
  have hloop (n : Nat) : (List.range n).foldl
      (fun (st : Byte × Byte) j => (st.1 ^^^ (st.2 &&& spread (b >>> j)), ctXtime st.2)) (0, a) =
      (xorOver b.getLsbD (fun j => xtimes j a) n, xtimes n a) := by
    induction n with
    | zero => rfl
    | succ n ih =>
      rw [List.range_succ, List.foldl_append, ih, List.foldl_cons, List.foldl_nil, and_spread_shift,
        ctXtime_eq_xtime, xorOver, xtimes]
  rw [ctGmul, hloop, gmul_eq_xorOver]

@[simp] theorem gmul_zero : gmul a 0 = 0 := by simp [gmul]

@[simp] theorem one_gmul : gmul 1 a = a := by
  revert a
  decide +kernel

@[simp] theorem gmul_one : gmul a 1 = a := by simp [gmul_eq_xorOver, xorOver, xtimes]

theorem gmul_xor (c : Byte) : gmul a (b ^^^ c) = gmul a b ^^^ gmul a c := by
  have hbits : (b ^^^ c).getLsbD = fun j => b.getLsbD j ^^ c.getLsbD j := funext fun _ => BitVec.getLsbD_xor
  simp only [gmul_eq_xorOver, hbits, xorOver_mask_xor]

/-- R121's reduction: `x^8 = x^4 + x^3 + x + 1`. -/
theorem gmul_modulus : gmul a 0x1B = xtimes 8 a := by
  revert a
  decide +kernel

theorem gmul_shiftLeft_one : gmul a (b <<< 1) = xorOver b.getLsbD (fun j => xtimes (j + 1) a) 7 := by
  rw [gmul_eq_xorOver, xorOver_succ_left]
  simp [xorOver]

/-- Multiplying `b` by x multiplies the product by x: the term that leaves the eight is the reduction. -/
theorem gmul_xtime : gmul a (xtime b) = xtime (gmul a b) := by
  have hxtime : xtime (gmul a b) = xorOver b.getLsbD (fun j => xtimes (j + 1) a) 8 := by
    rw [gmul_eq_xorOver, map_xorOver _ _ _ rfl xtime_xor]
    rfl
  rw [hxtime, xtime_eq_shift_xor, gmul_xor, gmul_shiftLeft_one, apply_ite (gmul a), gmul_modulus, gmul_zero]
  rfl

theorem gmul_xtimes (j : Nat) : gmul a (xtimes j b) = xtimes j (gmul a b) := by
  induction j with
  | zero => rfl
  | succ j ih => rw [xtimes, gmul_xtime, ih, xtimes]

theorem gmul_assoc (c : Byte) : gmul a (gmul b c) = gmul (gmul a b) c := by
  rw [gmul_eq_xorOver b c, map_xorOver _ _ _ (gmul_zero a) (gmul_xor a), gmul_eq_xorOver _ c]
  simp only [gmul_xtimes]

/-! ### Powers, and inversion as the power 254 (R122, R129) -/

/-- `a^n` in GF(2^8). -/
def gpow (a : Byte) : Nat → Byte
  | 0 => 1
  | n + 1 => gmul (gpow a n) a

theorem gpow_add (m n : Nat) : gpow a (m + n) = gmul (gpow a m) (gpow a n) := by
  induction n with
  | zero => exact (gmul_one _).symm
  | succ n ih => rw [Nat.add_succ, gpow, ih, gpow, gmul_assoc]

@[simp] theorem gpow_one : gpow a 1 = a := one_gmul a

theorem gfInv_eq_gpow : gfInv a = gpow a 254 := by
  have hsquares : gfInv (gpow a 1) = gpow a 254 := by simp only [gfInv, gsquare, ← gpow_add, Nat.reduceAdd]
  rwa [gpow_one] at hsquares

theorem ctInv_eq_gpow : ctInv a = gpow a 254 := by
  have hchain : ctInv (gpow a 1) = gpow a 254 := by
    simp only [ctInv, ctGmul_eq_gmul, ← gpow_add, Nat.reduceAdd]
  rwa [gpow_one] at hchain

theorem ctInv_eq_gfInv : ctInv a = gfInv a := by rw [ctInv_eq_gpow, gfInv_eq_gpow]

/-! ### The affine map (R123, R124) -/

theorem rotl8_getLsbD {n : Nat} (h0 : 0 < n) (h8 : n < 8) (i : Fin 8) :
    (rotl8 v n).getLsbD i = v.getLsbD ((i + (8 - n)) % 8) := by
  have hi := i.isLt
  rw [rotl8, BitVec.getLsbD_or, BitVec.getLsbD_shiftLeft, BitVec.getLsbD_ushiftRight]
  by_cases hlow : i.val < n
  · have hmod : (i.val + (8 - n)) % 8 = 8 - n + i.val := by omega
    simp [hlow, hmod]
  · have hmod : (i.val + (8 - n)) % 8 = i.val - n := by omega
    have hover : v.getLsbD (8 - n + i.val) = false := BitVec.getLsbD_of_ge _ _ (by omega)
    simp [hlow, hmod, hover]

/-- The rotation by `n` brings bit `i + 8 - n`, so R123's five terms are its bits `i` and `i + 4` to `i + 7`. -/
theorem affine_getLsbD (i : Fin 8) : (affine v).getLsbD i =
    ((v.getLsbD i ^^ v.getLsbD ((i + 4) % 8)) ^^ (v.getLsbD ((i + 5) % 8) ^^ v.getLsbD ((i + 6) % 8)) ^^
      (v.getLsbD ((i + 7) % 8) ^^ (0x63 : Byte).getLsbD i)) := by
  simp only [affine, BitVec.getLsbD_xor, rotl8_getLsbD, Nat.reduceLT, Nat.reduceSub]
  simp only [Bool.xor_assoc, Bool.xor_comm, Bool.xor_left_comm]

theorem invAffine_affine : invAffine (affine v) = v := by
  revert v
  decide +kernel

/-! ### The two ROMs (R123 to R125) -/

/-- A ROM that lists the values of `g` in order answers `g a` at index `a`. -/
theorem getElem?_of_eq_table {rom : List Byte} {g : Byte → Byte}
    (h : rom = (List.range 256).map fun n => g (BitVec.ofNat 8 n)) : rom[a.toNat]? = some (g a) := by
  have hlt : a.toNat < 256 := a.isLt
  rw [h, List.getElem?_map, List.getElem?_range hlt, Option.map_some, BitVec.ofNat_toNat, BitVec.setWidth_eq]

theorem sboxRom_eq_table : sboxRom = (List.range 256).map fun n => sboxOf (BitVec.ofNat 8 n) := by
  decide +kernel

theorem sboxRom_getElem? : sboxRom[a.toNat]? = some (sboxOf a) := getElem?_of_eq_table a sboxRom_eq_table

theorem subFast_eq_sboxOf : subFast a = sboxOf a := by
  rw [subFast, List.getD_eq_getElem?_getD, sboxRom_getElem?, Option.getD_some]

/-- What the forward ROM knows of inversion. -/
theorem gfInv_eq_invAffine_subFast : gfInv a = invAffine (subFast a) := by
  rw [subFast_eq_sboxOf, sboxOf, invAffine_affine]

/-- The inverse ROM, compared with the forward one: this spares 256 inversions. -/
theorem invSboxRom_eq_table :
    invSboxRom = (List.range 256).map fun n => invAffine (subFast (invAffine (BitVec.ofNat 8 n))) := by
  decide +kernel

theorem invSboxRom_getElem? : invSboxRom[a.toNat]? = some (invSboxOf a) := by
  rw [invSboxOf, gfInv_eq_invAffine_subFast]
  exact getElem?_of_eq_table (g := fun s => invAffine (subFast (invAffine s))) a invSboxRom_eq_table

theorem invSubFast_eq_invSboxOf : invSubFast a = invSboxOf a := by
  rw [invSubFast, List.getD_eq_getElem?_getD, invSboxRom_getElem?, Option.getD_some]

theorem map_invSubFast_sboxRom : sboxRom.map invSubFast = (List.range 256).map (BitVec.ofNat 8) := by
  decide +kernel

theorem invSubFast_subFast : invSubFast (subFast a) = a := by
  have hinverse : (sboxRom.map invSubFast)[a.toNat]? = some a :=
    getElem?_of_eq_table (g := id) a map_invSubFast_sboxRom
  rw [List.getElem?_map, sboxRom_getElem?, ← subFast_eq_sboxOf] at hinverse
  exact Option.some.inj hinverse

end

/-! ### The obligations -/

/-- Settles O30: each ROM lists the values of its definition in order, and reading the inverse ROM at the entries of
the forward one counts from 0 to 255. -/
theorem sboxRomsTabulateDefinition : Obligations.SboxRomsTabulateDefinition := by
  unfold Obligations.SboxRomsTabulateDefinition
  refine ⟨by decide +kernel, by decide +kernel, by decide +kernel, by decide +kernel, affine_getLsbD,
    fun _ => rfl, fun _ => rfl, fun a => ⟨subFast_eq_sboxOf a, invSubFast_eq_invSboxOf a, invSubFast_subFast a,
      ?_, ?_⟩, by decide⟩
  · rw [subFast_eq_sboxOf, sboxRom_getElem?]
  · rw [invSubFast_eq_invSboxOf, invSboxRom_getElem?]

/-- Settles O32: the circuit has the affine maps of the definition, its inversion is the power 254 like the
definition's, and the ROMs tabulate the definition. -/
theorem hardenedSboxEqualsFast : Obligations.HardenedSboxEqualsFast := by
  unfold Obligations.HardenedSboxEqualsFast
  intro b
  constructor
  · calc subCt b = ctAffine (gfInv b) := by rw [subCt, ctInv_eq_gfInv]
      _ = sboxOf b := rfl
      _ = subFast b := (subFast_eq_sboxOf b).symm
  · calc invSubCt b = gfInv (ctInvAffine b) := by rw [invSubCt, ctInv_eq_gfInv]
      _ = invSboxOf b := rfl
      _ = invSubFast b := (invSubFast_eq_invSboxOf b).symm

end Sys2Proof.Machine
end

section
/-! PROOFS. The key schedule (42_keyschedule.md): the padding of SHA-256, the output blocks of HKDF, and the source's
known answer. -/

namespace Sys2Proof.Machine

open Certificates

/-! ### The padding (R154) -/

theorem shaPad_length (M : List Byte) : (shaPad M).length = M.length + 1 + padZeros M.length + 8 := by
  simp only [shaPad, List.length_append, List.length_singleton, List.length_replicate, be64Bytes_length]

theorem pad_mod_eq_zero (len : Nat) : (len + 1 + padZeros len + 8) % 64 = 0 := by
  unfold padZeros
  omega

theorem pad_mod_ne_zero_of_lt {len j : Nat} (h : j < padZeros len) : (len + 1 + j + 8) % 64 ≠ 0 := by
  unfold padZeros at h
  omega

/-- The bytes of `L8` are the base-256 digits of the bit length. -/
theorem be64Bytes_getD_toNat {n j : Nat} (hn : n < 2 ^ 64) (hj : j < 8) :
    ((be64Bytes n).getD j 0).toNat = n / 2 ^ (8 * (7 - j)) % 256 := by
  rw [be64Bytes_of_lt hn, List.getD_eq_getElem _ _ (by simpa using hj), List.getElem_map, List.getElem_range,
    BitVec.extractLsb'_toNat, BitVec.toNat_ofNat, Nat.mod_eq_of_lt hn, Nat.shiftRight_eq_div_pow]

/-- Settles O34: the zeros of the padding are the least `k`, and a residue 55 or 56 fixes it. -/
theorem paddingOfMessage : Obligations.PaddingOfMessage := by
  unfold Obligations.PaddingOfMessage
  refine ⟨fun M => ⟨padZeros M.length, rfl, ?_, fun _ => pad_mod_ne_zero_of_lt, fun h => ?_, fun h => ?_⟩,
    be64Bytes_length, fun _ hn _ => be64Bytes_getD_toNat hn, by decide⟩
  · rw [shaPad_length, pad_mod_eq_zero]
  · rw [padZeros, h]
  · rw [padZeros, h]

/-! ### The output blocks (R166, R167) -/

theorem hkdfT_succ (prk : List Byte) (i : Nat) :
    hkdfT prk (i + 1) = hmac prk (hkdfT prk i ++ hkdfInfo ++ [BitVec.ofNat 8 (i + 1)]) := rfl

/-- The loop that carries the last block yields the blocks of R166 in order. -/
theorem hkdfBlocks_eq_flatMap_hkdfT (prk : List Byte) (n i : Nat) :
    hkdfBlocks prk n i (hkdfT prk i) = (List.range' (i + 1) n).flatMap (hkdfT prk) := by
  induction n generalizing i with
  | zero => rfl
  | succ n ih => rw [hkdfBlocks, ← hkdfT_succ, ih, List.range'_succ, List.flatMap_cons]

theorem hkdfOkm_eq_take (key : List Byte) : hkdfOkm key =
    ((List.range' 1 6).flatMap (hkdfT (hkdfExtract key))).take 172 := by
  rw [hkdfOkm, ← hkdfBlocks_eq_flatMap_hkdfT, hkdfT_zero]

/-- Settles O37: extract and `T` unfold to R165 and R166, and the loop of `OKM` yields `T(1)` to `T(6)`. -/
theorem hkdfExtractThenExpand : Obligations.HkdfExtractThenExpand := by
  unfold Obligations.HkdfExtractThenExpand
  refine ⟨fun key => ⟨rfl, hmac_length _ _⟩, fun prk => ⟨hkdfT_zero prk, hkdfT_succ prk⟩,
    fun key => ⟨?_, hkdfOkm_length key⟩⟩
  rw [hkdfOkm_eq_take]
  simp [List.range'_succ]

/-! ### The two strings (R172, R173) -/

/-- Settles O36: the bytes of the two constants, compared with the printed digits and characters. -/
theorem saltAndInfoStrings : Obligations.SaltAndInfoStrings := by
  unfold Obligations.SaltAndInfoStrings
  decide

/-! ### The source's known answer (R179) -/

/-- The `PRK` that R179 prints. -/
def printedPrk : List Byte :=
  hexBytes 32 0xE0C9C387D741C5E210A27AC65AFCF940261478FBF675299251DE00D6C410F242

/-- `T(0)`, empty, and `T(1)` to `T(6)` as R179 prints them. -/
def printedT : Nat → List Byte
  | 1 => hexBytes 32 0x5EEA711B1A0EC8953685234EDDAA7793FB42067DF0E4DBD0ED962A80EBBC16FF
  | 2 => hexBytes 32 0xDB12AF12FE4348D3C84841B6A3FD1D29E7C6B3BF6166DC868730A84949F1440F
  | 3 => hexBytes 32 0x65D3983E46693CEFDB4CD58E5BC664C5B9D2C0AA7CE6E44D10896399E3F4366E
  | 4 => hexBytes 32 0xF1CA09AC9042F77241CAB0B7F95A09BCAA56713E55477C3E6F14385DDF479B42
  | 5 => hexBytes 32 0xBACF1FCD7C9D7850C2606E6DE2D7ACCE3DAE88507AF5767919356536F4E0453F
  | 6 => hexBytes 32 0x88898D0EA524C7F27DE1E5AE07DD5A1CD9EB3A8D6A7CB10FF471252D59B2E1F4
  | _ => []

theorem hkdfExtract_sourceKey : hkdfExtract (blockBytes sourceKey) = printedPrk := by
  decide +kernel

/-- Each printed block follows from the printed one before it. -/
theorem hmac_printedT : ∀ i < 6,
    hmac printedPrk (printedT i ++ hkdfInfo ++ [BitVec.ofNat 8 (i + 1)]) = printedT (i + 1) := by
  decide +kernel

theorem hkdfT_printedPrk {i : Nat} (h : i ≤ 6) : hkdfT printedPrk i = printedT i := by
  induction i with
  | zero => rfl
  | succ i ih => rw [hkdfT_succ, ih (by omega), hmac_printedT i h]

theorem hkdfT_sourceKey {i : Nat} (h : i ≤ 6) :
    hkdfT (hkdfExtract (blockBytes sourceKey)) i = printedT i := by
  rw [hkdfExtract_sourceKey, hkdfT_printedPrk h]

theorem hkdfOkm_sourceKey :
    hkdfOkm (blockBytes sourceKey) = ((List.range' 1 6).flatMap printedT).take 172 := by
  have hblocks : ∀ i ∈ List.range' 1 6, hkdfT (hkdfExtract (blockBytes sourceKey)) i = printedT i := by
    intro i hi
    rw [List.mem_range'_1] at hi
    exact hkdfT_sourceKey (by omega)
  rw [hkdfOkm_eq_take, List.flatMap_congr hblocks]

/-- Settles O39: `PRK` and the blocks by their lemmas; `RK`, `PS` and `POST` are the cut of the printed blocks. -/
theorem sourceKnownAnswer : Obligations.SourceKnownAnswer := by
  unfold Obligations.SourceKnownAnswer
  refine ⟨hkdfExtract_sourceKey, hkdfT_sourceKey (by decide), hkdfT_sourceKey (by decide),
    hkdfT_sourceKey (by decide), hkdfT_sourceKey (by decide), hkdfT_sourceKey (by decide),
    hkdfT_sourceKey (by decide), ?_⟩
  rw [deriveMaterial, hkdfOkm_sourceKey]
  decide +kernel

end Sys2Proof.Machine
end

section
/-! PROOFS. The algebra of permutation tables (43_permutation.md R204, R210 to R213): a pass of writes along an
injective table, and from it `invert`; composition; that primitives and rounds are bijections. -/

namespace Sys2Proof.Machine

/-! ### A pass of writes along an injective table -/

section
variable {σ α : Type} {get : σ → Fin 96 → α} {write : σ → Fin 96 → σ} {new : Fin 96 → α → α} {P : Perm}

/-- A write for the source `src` changes entry `P[src]` alone, from `a` to `new src a`. The passes of `invert`,
`apply_fast` and `apply_ct` (R211, R220, R221) consist of such writes. -/
def WritesAlong (get : σ → Fin 96 → α) (write : σ → Fin 96 → σ) (new : Fin 96 → α → α) (P : Perm) : Prop :=
  ∀ s src dst, get (write s src) dst = if permAt P src = dst then new src (get s dst) else get s dst

theorem WritesAlong.foldl_get_of_not_mem (hw : WritesAlong get write new P) (hP : Function.Injective (permAt P))
    {i : Fin 96} {l : List (Fin 96)} (hi : i ∉ l) (s : σ) :
    get (l.foldl write s) (permAt P i) = get s (permAt P i) := by
  induction l generalizing s with
  | nil => rfl
  | cons j l ih =>
    obtain ⟨hij, hil⟩ := not_or.mp (mt List.mem_cons.mpr hi)
    rw [List.foldl_cons, ih hil, hw, if_neg fun h => hij (hP h).symm]

theorem WritesAlong.foldl_get_of_mem (hw : WritesAlong get write new P) (hP : Function.Injective (permAt P))
    {i : Fin 96} {l : List (Fin 96)} (hl : l.Nodup) (hi : i ∈ l) (s : σ) :
    get (l.foldl write s) (permAt P i) = new i (get s (permAt P i)) := by
  induction l generalizing s with
  | nil => exact absurd hi List.not_mem_nil
  | cons j l ih =>
    obtain ⟨hjl, hl⟩ := List.nodup_cons.mp hl
    rw [List.foldl_cons]
    rcases List.mem_cons.mp hi with rfl | hil
    · rw [hw.foldl_get_of_not_mem hP hjl, hw, if_pos rfl]
    · have hne : permAt P j ≠ permAt P i := fun h => hjl (hP h ▸ hil)
      rw [ih hl hil, hw, if_neg hne]

/-- The pass over all 96 sources writes every entry once. -/
theorem WritesAlong.pass_get (hw : WritesAlong get write new P) (hP : Function.Injective (permAt P)) (s : σ)
    (i : Fin 96) : get ((List.finRange 96).foldl write s) (permAt P i) = new i (get s (permAt P i)) :=
  hw.foldl_get_of_mem hP (List.nodup_finRange 96) (List.mem_finRange i) s

end

/-! ### Inversion (R211) -/

section
variable {P : Perm} (hP : PermBijective P)
include hP

theorem permAt_invert_permAt (i : Fin 96) : permAt (invert P) (permAt P i) = i :=
  WritesAlong.pass_get (get := permAt) (new := fun i _ => i) (invertWrite_get P) hP.injective _ i

theorem permAt_permAt_invert (j : Fin 96) : permAt P (permAt (invert P) j) = j := by
  obtain ⟨i, rfl⟩ := hP.surjective j
  rw [permAt_invert_permAt hP]

theorem permBijective_invert : PermBijective (invert P) :=
  Function.bijective_iff_has_inverse.mpr ⟨permAt P, permAt_permAt_invert hP, permAt_invert_permAt hP⟩

theorem compose_invert : compose P (invert P) = permId :=
  perm_eq_of_entries fun i => by rw [compose_get, permAt_invert_permAt hP, permId_get]

theorem invert_compose_self : compose (invert P) P = permId :=
  perm_eq_of_entries fun i => by rw [compose_get, permAt_permAt_invert hP, permId_get]

end

/-! ### Composition (R210, R212) -/

theorem permBijective_permId : PermBijective permId := by
  have h : permAt permId = id := funext permId_get
  exact (congrArg Function.Bijective h).mpr Function.bijective_id

theorem compose_assoc (A B C : Perm) : compose (compose A B) C = compose A (compose B C) :=
  perm_eq_of_entries fun i => by simp only [compose_get]

theorem permId_compose (B : Perm) : compose permId B = B :=
  perm_eq_of_entries fun i => by rw [compose_get, permId_get]

theorem compose_permId (A : Perm) : compose A permId = A :=
  perm_eq_of_entries fun i => by rw [compose_get, permId_get]

section
variable {A B : Perm} (hA : PermBijective A) (hB : PermBijective B)
include hA hB

theorem permBijective_compose : PermBijective (compose A B) := by
  have h : permAt (compose A B) = permAt B ∘ permAt A := funext (compose_get A B)
  exact (congrArg Function.Bijective h).mpr (hB.comp hA)

/-- Both sides send `B[A[i]]` back to `i`. -/
theorem invert_compose : invert (compose A B) = compose (invert B) (invert A) := by
  have hAB := permBijective_compose hA hB
  refine perm_eq_of_entries fun j => ?_
  obtain ⟨i, rfl⟩ := hAB.surjective j
  rw [permAt_invert_permAt hAB, compose_get, compose_get, permAt_invert_permAt hB, permAt_invert_permAt hA]

end

/-! ### The primitives and the rounds are bijections (R204, R212, R213) -/

/-- The map that undoes a primitive. -/
def primitiveUnmap : Primitive → Cell → Cell
  | .faceCw z0 => primitiveMap (.faceCcw z0)
  | .faceCcw z0 => primitiveMap (.faceCw z0)
  | .faceHalf z0 => primitiveMap (.faceHalf z0)
  | .rowUp z0 => primitiveMap (.rowDown z0)
  | .rowDown z0 => primitiveMap (.rowUp z0)
  | .colRight z0 => fun c => if c.z.val = z0.val then { c with x := c.x + 3 } else c
  | .zShiftX x0 => fun c => if c.x.val = x0.val then { c with z := c.z + 5 } else c
  | .zShiftY y0 => fun c => if c.y.val = y0.val then { c with z := c.z + 5 } else c

theorem primitiveUnmap_primitiveMap (m : Primitive) (c : Cell) : primitiveUnmap m (primitiveMap m c) = c := by
  cases m with
  | faceCw z0 | faceCcw z0 | faceHalf z0 =>
    by_cases h : c.z = z0
    · subst h
      simp [primitiveUnmap, primitiveMap]
    · simp [primitiveUnmap, primitiveMap, h]
  | rowUp z0 | rowDown z0 | colRight z0 =>
    by_cases h : c.z.val = z0.val <;> simp [primitiveUnmap, primitiveMap, h, add_assoc]
  | zShiftX x0 => by_cases h : c.x.val = x0.val <;> simp [primitiveUnmap, primitiveMap, h, add_assoc]
  | zShiftY y0 => by_cases h : c.y.val = y0.val <;> simp [primitiveUnmap, primitiveMap, h, add_assoc]

/-- An injective map of the 96 indices is a bijection. -/
theorem permBijective_primRom (p : Fin 36) : PermBijective (primRom p) := by
  have hcell : Function.Injective cellOf := Function.LeftInverse.injective idxOf_cellOf
  have hmap : Function.Injective (primitiveMap (primitiveOf p)) :=
    Function.LeftInverse.injective (primitiveUnmap_primitiveMap _)
  have h : permAt (primRom p) = idxOf ∘ primitiveMap (primitiveOf p) ∘ cellOf := funext (permAt_primRom p)
  exact Finite.injective_iff_bijective.mp (h ▸ idxOf_bijective.injective.comp (hmap.comp hcell))

theorem permBijective_assemble (n : Nat) (s : Word64) {acc : Perm} (hacc : PermBijective acc) :
    PermBijective (assemble n s acc) := by
  induction n generalizing s acc with
  | zero => exact hacc
  | succ n ih => exact ih _ (permBijective_compose hacc (permBijective_primRom _))

theorem permBijective_roundPerm (seed : Seed) : PermBijective (roundPerm seed) :=
  permBijective_assemble 12 seed permBijective_permId

/-! ### The entries of a round's permutation (R213) -/

/-- Where the moves of a list of picks, first pick first, send a cell. -/
def moveCell (picks : List (Fin 36)) (c : Cell) : Cell :=
  picks.foldl (fun c p => primitiveMap (primitiveOf p) c) c

theorem moveCell_cons (p : Fin 36) (picks : List (Fin 36)) (c : Cell) :
    moveCell (p :: picks) c = moveCell picks (primitiveMap (primitiveOf p) c) := List.foldl_cons

theorem assemble_succ (n : Nat) (s : Word64) (acc : Perm) : assemble (n + 1) s acc =
    assemble n (splitMixNext s).1 (compose acc (primRom (pickOf (splitMixNext s).2))) := rfl

theorem picksFrom_succ (n : Nat) (s : Word64) :
    picksFrom (n + 1) s = pickOf (splitMixNext s).2 :: picksFrom n (splitMixNext s).1 := rfl

theorem roundPerm_eq_assemble (seed : Seed) : roundPerm seed = assemble 12 seed permId := rfl

/-- Entry by entry, assembly is the picked moves one after the other on the cell of the index. -/
theorem permAt_assemble (n : Nat) (s : Word64) (acc : Perm) (i : Fin 96) :
    permAt (assemble n s acc) i = idxOf (moveCell (picksFrom n s) (cellOf (permAt acc i))) := by
  induction n generalizing s acc with
  | zero => exact (idxOf_cellOf _).symm
  | succ n ih => rw [assemble_succ, picksFrom_succ, moveCell_cons, ih, compose_get, permAt_primRom, cellOf_idxOf]

theorem permAt_roundPerm (seed : Seed) :
    permAt (roundPerm seed) = fun i => idxOf (moveCell (picksFrom 12 seed) (cellOf i)) :=
  funext fun i => by rw [roundPerm_eq_assemble, permAt_assemble, permId_get]

theorem toList_eq_map_permAt (P : Perm) : P.toList = (List.finRange 96).map (permAt P) := by
  refine List.ext_getElem (by simp) fun i hi _ => ?_
  simp [permAt_eq_getElem]

/-! ### What a key installs (R212, R215) -/

section
variable (key : Block) (r : Fin 8)

theorem materialOf_perm : (materialOf key).perm[r] = roundPerm (deriveMaterial key).ps[r] :=
  Vector.getElem_map roundPerm r.isLt

theorem materialOf_invPerm : (materialOf key).invPerm[r] = invert (materialOf key).perm[r] :=
  Vector.getElem_map invert r.isLt

theorem permBijective_materialOf_perm : PermBijective (materialOf key).perm[r] := by
  rw [materialOf_perm]
  exact permBijective_roundPerm _

end

/-! ### The obligations -/

/-- Settles O44: composition is composition of functions, so bijections stay bijections; the primitives are ones, hence
every round's permutation is. -/
theorem permutationAlgebra : Obligations.PermutationAlgebra := by
  unfold Obligations.PermutationAlgebra
  refine ⟨compose_assoc, fun P hP => ⟨compose_invert hP, invert_compose_self hP⟩,
    fun A B hA hB => ⟨invert_compose hA hB, permBijective_compose hA hB⟩, fun key r => ?_⟩
  have hP := permBijective_materialOf_perm key r
  refine ⟨hP, fun i => ?_⟩
  rw [materialOf_invPerm, permAt_invert_permAt hP]

/-- Settles O45: entries of a composition, and the pass of `invert` along a bijection. -/
theorem composeAndInvertEntries : Obligations.ComposeAndInvertEntries := by
  unfold Obligations.ComposeAndInvertEntries
  refine ⟨compose_get, permId_compose, compose_permId, ?_,
    fun P hP i => ⟨permAt_invert_permAt hP i, permAt_permAt_invert hP i⟩⟩
  rw [compose_get, permAt_primRom, permAt_primRom]
  rfl

end Sys2Proof.Machine
end

section
/-! PROOFS. The two application circuits (43_permutation.md R220 to R224), and the printed draws and round-0
permutation (R193, R216). -/

namespace Sys2Proof.Machine

open Certificates

/-! ### An iteration of `apply_ct` is a bit store (R107, R221, R222) -/

theorem byte_natCast_oneHot : ∀ o : Fin 8, ((1 <<< o.val : Nat) : Byte) = (1 : Byte) <<< o.val := by
  decide

/-- The mask `0 − bit` is all ones or all zeros: of a byte with one bit set it leaves `bit` there. -/
theorem mask_and_oneHot : ∀ (bit : Bool) (o : Fin 8),
    (0 - (BitVec.ofBool bit).setWidth 8) &&& ((1 : Byte) <<< o.val) =
      (BitVec.ofBool bit).setWidth 8 <<< o.val := by
  decide

/-- On a one-bit mask the masked merge is the read-modify-write of R107. -/
theorem mergeByte_oneHot (v : Byte) (bit : Bool) (o : Fin 8) : mergeByte v bit (1 <<< o.val) =
    (v &&& ~~~((1 : Byte) <<< o.val)) ||| ((BitVec.ofBool bit).setWidth 8 <<< o.val) := by
  rw [byte_natCast_oneHot, ← mask_and_oneHot]
  rfl

theorem mergeBit_eq_setBit (P : Perm) (S out : Block) (src : Fin 96) :
    mergeBit P S out src = setBit out (permAt P src) (getBit S src) :=
  congrArg (setBlockByte out _) (mergeByte_oneHot _ _ _)

theorem getBit_zero (i : Fin 96) : getBit 0 i = false := by
  rw [getBit_eq_getLsbD, BitVec.ofNat_eq_ofNat, BitVec.getLsbD_zero]

/-! ### Both circuits along a bijection (R223, R224) -/

section
variable {P : Perm} (hP : PermBijective P) (S : Block) (src : Fin 96)
include hP

theorem getBit_applyFast : getBit (applyFast P S) (permAt P src) = getBit S src := by
  have hw : WritesAlong getBit (fun out src => if getBit S src then setBit out (permAt P src) true else out)
      (fun src old => getBit S src || old) P := by
    intro out src dst
    cases h : getBit S src with
    | false => simp [h]
    | true => simp [h, getBit_setBit, eq_comm (a := dst)]
  exact (hw.pass_get hP.injective 0 src).trans (by rw [getBit_zero, Bool.or_false])

theorem getBit_applyCt : getBit (applyCt P S) (permAt P src) = getBit S src := by
  have hw : WritesAlong getBit (mergeBit P S) (fun src _ => getBit S src) P := by
    intro out src dst
    rw [mergeBit_eq_setBit, getBit_setBit]
    simp only [eq_comm]
  exact hw.pass_get hP.injective 0 src

theorem applyFast_eq_applyCt : applyFast P S = applyCt P S := by
  refine block_eq_of_bits fun dst => ?_
  obtain ⟨src, rfl⟩ := hP.surjective dst
  rw [getBit_applyFast hP, getBit_applyCt hP]

/-- The Block whose one set bit is `src`. -/
theorem applyFast_setBit_zero : applyFast P (setBit 0 src true) = setBit 0 (permAt P src) true := by
  refine block_eq_of_bits fun dst => ?_
  obtain ⟨i, rfl⟩ := hP.surjective dst
  simp only [getBit_applyFast hP, getBit_setBit, hP.injective.eq_iff, getBit_zero]

/-- Both circuits put bit `src` at `P[src]`. -/
theorem getBit_applyPerm (md : Mode) : getBit (applyPerm md P S) (permAt P src) = getBit S src := by
  cases md with
  | fast => exact getBit_applyFast hP S src
  | hardened => exact getBit_applyCt hP S src

theorem applyPerm_invert (md : Mode) : applyPerm md (invert P) (applyPerm md P S) = S := by
  refine block_eq_of_bits fun src => ?_
  calc getBit (applyPerm md (invert P) (applyPerm md P S)) src
    _ = getBit (applyPerm md (invert P) (applyPerm md P S)) (permAt (invert P) (permAt P src)) := by
      rw [permAt_invert_permAt hP]
    _ = getBit (applyPerm md P S) (permAt P src) := getBit_applyPerm (permBijective_invert hP) _ _ md
    _ = getBit S src := getBit_applyPerm hP S src md

end

theorem applyPerm_compose {A B : Perm} (hA : PermBijective A) (hB : PermBijective B) (S : Block) (md : Mode) :
    applyPerm md (compose A B) S = applyPerm md B (applyPerm md A S) := by
  have hAB := permBijective_compose hA hB
  refine block_eq_of_bits fun dst => ?_
  obtain ⟨src, rfl⟩ := hAB.surjective dst
  rw [getBit_applyPerm hAB, compose_get, getBit_applyPerm hB, getBit_applyPerm hA]

/-! ### The round-0 permutation of the source's key (R216) -/

theorem sourceKey_ps_zero : (deriveMaterial sourceKey).ps[(0 : Fin 8)] = 0xF1CA09AC9042F772 := by
  obtain ⟨-, -, -, -, -, -, -, hderived⟩ := sourceKnownAnswer
  rw [hderived]
  rfl

theorem picksFrom_sourceSeed :
    picksFrom 12 0xF1CA09AC9042F772 = [18, 7, 7, 10, 4, 1, 35, 29, 23, 4, 7, 14] := by
  decide

/-- `PERM[0]` as R216 prints it: the twelve picked moves on each of the 96 cells. -/
theorem roundPerm_sourceSeed_toList : (roundPerm 0xF1CA09AC9042F772).toList =
    ([13, 22, 5, 1, 14, 18, 6, 2, 15, 30, 7, 3, 12, 26, 4, 0,
      27, 46, 25, 24, 23, 42, 21, 20, 19, 38, 17, 16, 31, 34, 29, 28,
      35, 39, 43, 47, 56, 59, 58, 57, 33, 37, 41, 45, 32, 36, 40, 44] ++
     [61, 71, 53, 49, 62, 70, 54, 50, 63, 69, 55, 51, 60, 68, 52, 48,
      79, 78, 77, 76, 75, 74, 73, 72, 88, 89, 90, 91, 67, 66, 65, 64,
      80, 81, 82, 83, 84, 85, 86, 87, 8, 9, 10, 11, 92, 93, 94, 95]) := by
  rw [toList_eq_map_permAt, permAt_roundPerm, picksFrom_sourceSeed]
  rfl

theorem permAt_roundPerm_sourceSeed_zero : permAt (roundPerm 0xF1CA09AC9042F772) 0 = 13 := by
  rw [permAt_roundPerm, picksFrom_sourceSeed]
  rfl

/-! ### The obligations -/

/-- Settles O48: the passes of both circuits along a bijection, and in the example the one set bit moves to 13. -/
theorem applyMovesBits : Obligations.ApplyMovesBits := by
  unfold Obligations.ApplyMovesBits
  refine ⟨fun P S hP => ⟨applyFast_eq_applyCt hP S, getBit_applyFast hP S, fun dst => ?_⟩,
    permAt_roundPerm_sourceSeed_zero, ?_⟩
  · rw [← getBit_applyFast hP S (permAt (invert P) dst), permAt_permAt_invert hP]
  · calc applyFast (roundPerm 0xF1CA09AC9042F772) 0x800000000000000000000000
      _ = applyFast (roundPerm 0xF1CA09AC9042F772) (setBit 0 0 true) := rfl
      _ = setBit 0 (permAt (roundPerm 0xF1CA09AC9042F772) 0) true :=
        applyFast_setBit_zero (permBijective_roundPerm _) 0
      _ = setBit 0 13 true := by rw [permAt_roundPerm_sourceSeed_zero]
      _ = 0x000400000000000000000000 := rfl

/-- Settles O49: bit by bit, along the bijections. -/
theorem applyInvertCompose : Obligations.ApplyInvertCompose := by
  unfold Obligations.ApplyInvertCompose
  exact fun md A B S hA hB => ⟨applyPerm_invert hA S md, applyPerm_compose hA hB S md⟩

/-- Settles O41: the generator of R191, evaluated on the printed seeds. -/
theorem splitMixDraws : Obligations.SplitMixDraws := by
  unfold Obligations.SplitMixDraws
  decide

/-- Settles O47: every round's permutation is built from its seed, and the seed of round 0 is in the source's known
answer; its draws are evaluated here, its picks and its table by their lemmas. -/
theorem sourceRoundPermutation : Obligations.SourceRoundPermutation := by
  unfold Obligations.SourceRoundPermutation
  exact ⟨materialOf_perm sourceKey, sourceKey_ps_zero, by decide, picksFrom_sourceSeed,
    roundPerm_sourceSeed_toList⟩

end Sys2Proof.Machine
end

section
/-! PROOFS. The 36 primitives written by cycles (43_permutation.md R205): the cycles of a move of one slice are those of
slice 0, raised by 16 times the slice. -/

namespace Sys2Proof.Machine

open Certificates

/-! ### Raising cycles -/

theorem cycleNext_singleton (first a i : Nat) :
    cycleNext first [a] i = if i = a then some first else none := rfl

theorem cycleNext_cons_cons (first a b : Nat) (l : List Nat) (i : Nat) :
    cycleNext first (a :: b :: l) i = if i = a then some b else cycleNext first (b :: l) i := rfl

theorem cycleNext_raise (off first : Nat) (l : List Nat) (i : Nat) :
    cycleNext (first + off) (l.map (· + off)) (i + off) = (cycleNext first l i).map (· + off) := by
  induction l with
  | nil => rfl
  | cons a l ih =>
    cases l with
    | nil => by_cases h : i = a <;> simp [cycleNext_singleton, h]
    | cons b l =>
      rw [List.map_cons] at ih
      by_cases h : i = a <;> simp [cycleNext_cons_cons, h, ih]

theorem cycleNext_of_not_mem {first i : Nat} {l : List Nat} (h : i ∉ l) : cycleNext first l i = none := by
  induction l with
  | nil => rfl
  | cons a l ih =>
    obtain ⟨hia, hil⟩ := not_or.mp (mt List.mem_cons.mpr h)
    cases l with
    | nil => rw [cycleNext_singleton, if_neg hia]
    | cons b l => rw [cycleNext_cons_cons, if_neg hia, ih hil]

theorem cycleValue_add (off : Nat) (cycles : List (List Nat)) (i : Nat) : cycleValue off cycles (i + off) =
    (cycles.findSome? fun c => cycleNext (c.headD 0) c i).getD i + off := by
  have hraise : (fun c : List Nat => cycleNext (c.headD 0 + off) (c.map (· + off)) (i + off)) =
      Option.map (· + off) ∘ fun c => cycleNext (c.headD 0) c i :=
    funext fun c => cycleNext_raise off (c.headD 0) c i
  calc cycleValue off cycles (i + off)
    _ = (cycles.findSome? (Option.map (· + off) ∘ fun c => cycleNext (c.headD 0) c i)).getD (i + off) :=
      congrArg (fun f => (cycles.findSome? f).getD (i + off)) hraise
    _ = (cycles.findSome? fun c => cycleNext (c.headD 0) c i).getD i + off := by
      rw [← List.map_findSome?, Option.getD_map]

/-- Raising every number of the cycles raises the permutation. -/
theorem cycleValue_raise (off : Nat) (cycles : List (List Nat)) (i : Nat) :
    cycleValue off cycles (i + off) = cycleValue 0 cycles i + off :=
  (cycleValue_add off cycles i).trans (congrArg (· + off) (cycleValue_add 0 cycles i).symm)

theorem cycleValue_of_not_mem {off i : Nat} {cycles : List (List Nat)}
    (h : ∀ c ∈ cycles, ∀ a ∈ c, a + off ≠ i) : cycleValue off cycles i = i := by
  have hnone : cycles.findSome? (fun c => cycleNext (c.headD 0 + off) (c.map (· + off)) i) = none := by
    refine List.findSome?_eq_none_iff.mpr fun c hc => cycleNext_of_not_mem fun hi => ?_
    obtain ⟨a, ha, rfl⟩ := List.mem_map.mp hi
    exact h c hc a ha rfl
  exact congrArg (·.getD i) hnone

/-! ### Moves of one slice (R196 to R201) -/

/-- A move of the cells of slice `z`, given by what it does to `(x, y)`. -/
def sliceMap (z : Nat) (g : Fin 4 → Fin 4 → Fin 4 × Fin 4) (c : Cell) : Cell :=
  if c.z.val = z then { x := (g c.x c.y).1, y := (g c.x c.y).2, z := c.z } else c

section
variable {z : Nat} {g : Fin 4 → Fin 4 → Fin 4 × Fin 4} {c : Cell}

theorem sliceMap_of_eq (h : c.z.val = z) :
    sliceMap z g c = { x := (g c.x c.y).1, y := (g c.x c.y).2, z := c.z } := if_pos h

theorem sliceMap_of_ne (h : c.z.val ≠ z) : sliceMap z g c = c := if_neg h

end

/-- For a move of one slice it is enough to compare the 16 cells of the slice-0 pattern. -/
theorem hasCycles_of_sliceMap {p : Fin 36} {z : Nat} {g : Fin 4 → Fin 4 → Fin 4 × Fin 4}
    {cycles : List (List Nat)} (hmap : primitiveMap (primitiveOf p) = sliceMap z g)
    (hcycles : ∀ c ∈ cycles, ∀ a ∈ c, a < 16)
    (hpattern : ∀ x y : Fin 4,
      4 * (g x y).2.val + (g x y).1.val = cycleValue 0 cycles (4 * y.val + x.val)) :
    HasCycles (primRom p) (16 * z) cycles := by
  intro i
  have hi : i.val = 4 * (cellOf i).y.val + (cellOf i).x.val + 16 * (cellOf i).z.val := by
    simp only [cellOf_x_val, cellOf_y_val, cellOf_z_val]
    omega
  rw [permAt_primRom, hmap]
  by_cases hz : (cellOf i).z.val = z
  · rw [sliceMap_of_eq hz, idxOf_val, hi, hz, cycleValue_raise, ← hpattern]
    dsimp only
    omega
  · rw [sliceMap_of_ne hz, idxOf_cellOf, cycleValue_of_not_mem]
    intro c hc a ha h
    have ha16 := hcycles c hc a ha
    rw [cellOf_z_val] at hz
    omega

theorem primitiveOf_face (z : Fin 6) : primitiveOf ⟨3 * z.val, by omega⟩ = .faceCw z ∧
    primitiveOf ⟨3 * z.val + 1, by omega⟩ = .faceCcw z ∧
    primitiveOf ⟨3 * z.val + 2, by omega⟩ = .faceHalf z := by
  decide +revert

theorem primitiveOf_line (z : Fin 4) : primitiveOf ⟨18 + 3 * z.val, by omega⟩ = .rowUp z ∧
    primitiveOf ⟨19 + 3 * z.val, by omega⟩ = .rowDown z ∧
    primitiveOf ⟨20 + 3 * z.val, by omega⟩ = .colRight z := by
  decide +revert

theorem primitiveMap_face (z : Fin 6) :
    primitiveMap (.faceCw z) = sliceMap z (fun x y => (3 - y, x)) ∧
    primitiveMap (.faceCcw z) = sliceMap z (fun x y => (y, 3 - x)) ∧
    primitiveMap (.faceHalf z) = sliceMap z (fun x y => (3 - x, 3 - y)) :=
  ⟨funext fun _ => if_congr Fin.ext_iff rfl rfl, funext fun _ => if_congr Fin.ext_iff rfl rfl,
    funext fun _ => if_congr Fin.ext_iff rfl rfl⟩

theorem hasCycles_face (z : Fin 6) :
    HasCycles (primRom ⟨3 * z.val, by omega⟩) (16 * z.val)
      [[0, 3, 15, 12], [1, 7, 14, 8], [2, 11, 13, 4], [5, 6, 10, 9]] ∧
    HasCycles (primRom ⟨3 * z.val + 1, by omega⟩) (16 * z.val)
      [[0, 12, 15, 3], [1, 8, 14, 7], [2, 4, 13, 11], [5, 9, 10, 6]] ∧
    HasCycles (primRom ⟨3 * z.val + 2, by omega⟩) (16 * z.val)
      [[0, 15], [1, 14], [2, 13], [3, 12], [4, 11], [5, 10], [6, 9], [7, 8]] := by
  obtain ⟨hcw, hccw, hhalf⟩ := primitiveOf_face z
  obtain ⟨mcw, mccw, mhalf⟩ := primitiveMap_face z
  refine ⟨hasCycles_of_sliceMap (hcw ▸ mcw) ?_ ?_, hasCycles_of_sliceMap (hccw ▸ mccw) ?_ ?_,
    hasCycles_of_sliceMap (hhalf ▸ mhalf) ?_ ?_⟩ <;> decide

theorem hasCycles_line (z : Fin 4) :
    HasCycles (primRom ⟨18 + 3 * z.val, by omega⟩) (16 * z.val)
      [[0, 4, 8, 12], [1, 5, 9, 13], [2, 6, 10, 14], [3, 7, 11, 15]] ∧
    HasCycles (primRom ⟨19 + 3 * z.val, by omega⟩) (16 * z.val)
      [[0, 12, 8, 4], [1, 13, 9, 5], [2, 14, 10, 6], [3, 15, 11, 7]] ∧
    HasCycles (primRom ⟨20 + 3 * z.val, by omega⟩) (16 * z.val)
      [[0, 1, 2, 3], [4, 5, 6, 7], [8, 9, 10, 11], [12, 13, 14, 15]] := by
  obtain ⟨hup, hdown, hright⟩ := primitiveOf_line z
  refine ⟨hasCycles_of_sliceMap (g := fun x y => (x, y + 1)) (hup ▸ rfl) ?_ ?_,
    hasCycles_of_sliceMap (g := fun x y => (x, y + 3)) (hdown ▸ rfl) ?_ ?_,
    hasCycles_of_sliceMap (g := fun x y => (x + 1, y)) (hright ▸ rfl) ?_ ?_⟩ <;> decide

/-! ### The z-shifts (R202, R203) -/

theorem hasCycles_primRom_iff {p : Fin 36} {off : Nat} {cycles : List (List Nat)} :
    HasCycles (primRom p) off cycles ↔ ∀ i : Fin 96,
      (idxOf (primitiveMap (primitiveOf p) (cellOf i))).val = cycleValue off cycles i.val :=
  forall_congr' fun i => by rw [permAt_primRom]

/-! ### The obligation -/

/-- Settles O42: the moves of one slice by their slice-0 patterns, the six z-shifts by their coordinate maps on the 96
cells. -/
theorem primitivesInCycleNotation : Obligations.PrimitivesInCycleNotation := by
  unfold Obligations.PrimitivesInCycleNotation
  refine ⟨hasCycles_face, hasCycles_line, ?_⟩
  simp only [hasCycles_primRom_iff]
  decide

end Sys2Proof.Machine
end

section
/-! PROOFS. The round engine (44_round_engine.md): the source's trace of one encryption, the stages and what undoes
them, decryption against encryption, and the two datapaths. -/

namespace Sys2Proof.Machine

open Certificates

/-! ### The source's trace of one encryption (R246; 95_test_vectors.md section 6) -/

/-- What `derive_material` returns for the source's key, cut from the printed output of HKDF. -/
def sourceDerived : Derived := cutOkm (((List.range' 1 6).flatMap printedT).take 172)

theorem deriveMaterial_sourceKey : deriveMaterial sourceKey = sourceDerived := by
  rw [deriveMaterial, hkdfOkm_sourceKey, sourceDerived]

/-- A round written over the derived material, whose parts the source prints. -/
theorem encRound_materialOf (md : Mode) (key S : Block) (r : Fin 8) : encRound md (materialOf key) S r =
    applyPerm md (roundPerm (deriveMaterial key).ps[r]) (subBytes md (S ^^^ (deriveMaterial key).rk[r])) := by
  rw [← materialOf_perm]
  rfl

/-- Trace 1, with the proof that each round takes its state to the next: the first Block, then the column "after
Permute". The picked moves stand in for the composed table of a round: the kernel evaluates them ten times as fast. -/
def printedTrace : { states : Fin 9 → Block //
    ∀ r : Fin 8, encRound .fast (materialOf sourceKey) (states r.castSucc) r = states r.succ } where
  val i := #v[0x00112233445566778899AABB, 0xC8EACB70A16F148D3375A796, 0x595958C0EB21CE662E81108A,
    0xACD8082930E66AE12DFB2C80, 0x7900A85A8822F0D31B6FC1D3, 0x661FE77C69C9ABAEF36AF157,
    0x8354F450FE82A2C4D56BBD7C, 0xAFD6DADF24413D2D5E56F0F6, 0x1901F22F8426C11B735E1C93][i]
  property := by
    simp only [encRound_materialOf, deriveMaterial_sourceKey, applyPerm, applyFast, permAt_roundPerm]
    decide +kernel

/-! ### The stages of a round and what undoes them (R241, R242, R244) -/

section
variable (md me : Mode) (m : Material) (r : Fin 8) (S : Block)

@[simp] theorem addRoundKey_addRoundKey : addRoundKey m r (addRoundKey m r S) = S := by
  simp [addRoundKey]

@[simp] theorem addPostWhitening_addPostWhitening : addPostWhitening m (addPostWhitening m S) = S := by
  simp [addPostWhitening]

theorem subByte_mode_irrel : subByte md = subByte me := by
  have hfast : ∀ md, subByte md = subFast
    | .fast => rfl
    | .hardened => funext fun b => (hardenedSboxEqualsFast b).1
  rw [hfast md, hfast me]

theorem invSubByte_mode_irrel : invSubByte md = invSubByte me := by
  have hfast : ∀ md, invSubByte md = invSubFast
    | .fast => rfl
    | .hardened => funext fun b => (hardenedSboxEqualsFast b).2
  rw [hfast md, hfast me]

theorem invSubByte_subByte (b : Byte) : invSubByte md (subByte md b) = b := by
  rw [subByte_mode_irrel md .fast, invSubByte_mode_irrel md .fast]
  exact invSubFast_subFast b

/-- On the finitely many bytes a left inverse is a right inverse. -/
theorem subByte_invSubByte (b : Byte) : subByte md (invSubByte md b) = b := by
  have hleft : Function.LeftInverse (invSubByte md) (subByte md) := invSubByte_subByte md
  have hsurj : Function.Surjective (subByte md) := Finite.surjective_of_injective hleft.injective
  exact hleft.rightInverse_of_surjective hsurj b

/-- Byte functions that undo each other undo each other on the 12 lanes. -/
theorem mapBytes_mapBytes_of_leftInverse {f g : Byte → Byte} (h : Function.LeftInverse g f) :
    mapBytes g (mapBytes f S) = S :=
  block_eq_of_bytes fun k => by rw [blockByte_mapBytes, blockByte_mapBytes, h]

@[simp] theorem invSubBytes_subBytes : invSubBytes md (subBytes md S) = S :=
  mapBytes_mapBytes_of_leftInverse S (invSubByte_subByte md)

@[simp] theorem subBytes_invSubBytes : subBytes md (invSubBytes md S) = S :=
  mapBytes_mapBytes_of_leftInverse S (subByte_invSubByte md)

theorem subBytes_mode_irrel : subBytes md S = subBytes me S := by
  rw [subBytes, subBytes, subByte_mode_irrel md me]

theorem invSubBytes_mode_irrel : invSubBytes md S = invSubBytes me S := by
  rw [invSubBytes, invSubBytes, invSubByte_mode_irrel md me]

end

/-! ### The permutation circuits (R243) -/

section
variable {P : Perm} (hP : PermBijective P) (S : Block) (md me : Mode)
include hP

theorem applyPerm_mode_irrel : applyPerm md P S = applyPerm me P S := by
  have hfast : ∀ md, applyPerm md P S = applyFast P S
    | .fast => rfl
    | .hardened => (applyFast_eq_applyCt hP S).symm
  rw [hfast md, hfast me]

theorem invert_invert : invert (invert P) = P := by
  refine perm_eq_of_entries fun i => ?_
  calc permAt (invert (invert P)) i
    _ = permAt (invert (invert P)) (permAt (invert P) (permAt P i)) := by rw [permAt_invert_permAt hP]
    _ = permAt P i := permAt_invert_permAt (permBijective_invert hP) _

theorem applyPerm_applyPerm_invert : applyPerm md P (applyPerm md (invert P) S) = S := by
  have hundo := applyPerm_invert (permBijective_invert hP) S md
  rwa [invert_invert hP] at hundo

end

/-! ### One round of a key's material, in both directions and in both modes (R248, R251) -/

section
variable (key S : Block) (r : Fin 8) (md me : Mode)

theorem decRound_encRound :
    decRound md (materialOf key) (encRound md (materialOf key) S r) r = S := by
  have hperm (T : Block) :
      invPermuteRound md (materialOf key) r (permuteRound md (materialOf key) r T) = T := by
    rw [invPermuteRound, materialOf_invPerm, permuteRound]
    exact applyPerm_invert (permBijective_materialOf_perm key r) T md
  rw [decRound, encRound, hperm, invSubBytes_subBytes, addRoundKey_addRoundKey]

theorem encRound_decRound :
    encRound md (materialOf key) (decRound md (materialOf key) S r) r = S := by
  have hperm (T : Block) :
      permuteRound md (materialOf key) r (invPermuteRound md (materialOf key) r T) = T := by
    rw [invPermuteRound, materialOf_invPerm, permuteRound]
    exact applyPerm_applyPerm_invert (permBijective_materialOf_perm key r) T md
  rw [encRound, decRound, addRoundKey_addRoundKey, subBytes_invSubBytes, hperm]

theorem permuteRound_mode_irrel :
    permuteRound md (materialOf key) r S = permuteRound me (materialOf key) r S :=
  applyPerm_mode_irrel (permBijective_materialOf_perm key r) S md me

theorem invPermuteRound_mode_irrel :
    invPermuteRound md (materialOf key) r S = invPermuteRound me (materialOf key) r S := by
  rw [invPermuteRound, invPermuteRound, materialOf_invPerm]
  exact applyPerm_mode_irrel (permBijective_invert (permBijective_materialOf_perm key r)) S md me

theorem encRound_mode_irrel : encRound md (materialOf key) S r = encRound me (materialOf key) S r := by
  rw [encRound, encRound, subBytes_mode_irrel md me, permuteRound_mode_irrel key _ r md me]

theorem decRound_mode_irrel : decRound md (materialOf key) S r = decRound me (materialOf key) S r := by
  rw [decRound, decRound, invPermuteRound_mode_irrel key S r md me, invSubBytes_mode_irrel md me]

end

/-! ### All rounds (R246 to R248, R251) -/

/-- A pass whose every step is undone is undone by the pass of the undoing steps in reverse order. -/
theorem foldl_reverse_foldl {α β : Type} {f g : α → β → α} (h : ∀ a b, g (f a b) b = a) (l : List β)
    (a : α) : l.reverse.foldl g (l.foldl f a) = a := by
  induction l generalizing a with
  | nil => rfl
  | cons b l ih => rw [List.foldl_cons, List.reverse_cons, List.foldl_append, ih, List.foldl_cons, List.foldl_nil, h]

section
variable (key B : Block) (md me : Mode)

theorem encryptBlock_mode_irrel : encryptBlock md (materialOf key) B = encryptBlock me (materialOf key) B := by
  have hround : encRound md (materialOf key) = encRound me (materialOf key) :=
    funext₂ fun S r => encRound_mode_irrel key S r md me
  rw [encryptBlock, encryptBlock, hround]

theorem decryptBlock_mode_irrel : decryptBlock md (materialOf key) B = decryptBlock me (materialOf key) B := by
  have hround : decRound md (materialOf key) = decRound me (materialOf key) :=
    funext₂ fun S r => decRound_mode_irrel key S r md me
  rw [decryptBlock, decryptBlock, hround]

theorem decryptBlock_encryptBlock :
    decryptBlock md (materialOf key) (encryptBlock me (materialOf key) B) = B := by
  rw [encryptBlock_mode_irrel key B me md, decryptBlock, encryptBlock, addPostWhitening_addPostWhitening]
  exact foldl_reverse_foldl (fun S r => decRound_encRound key S r md) _ B

theorem encryptBlock_decryptBlock :
    encryptBlock md (materialOf key) (decryptBlock me (materialOf key) B) = B := by
  have hrounds := foldl_reverse_foldl (fun S r => encRound_decRound key S r md) (List.finRange 8).reverse
    (addPostWhitening (materialOf key) B)
  rw [List.reverse_reverse] at hrounds
  rw [decryptBlock_mode_irrel key B me md, encryptBlock, decryptBlock, hrounds, addPostWhitening_addPostWhitening]

end

/-! ### The commands on a core in another `MODE` (R251) -/

section
variable {s : State}

theorem exec_enc_of_keyed (hv : s.keyValid = true) :
    exec .enc s = .next ((s.setDataOut (encryptBlock s.mode s.material s.dataIn)).setErr .ok) :=
  if_neg (by simp [hv])

theorem exec_dec_of_keyed (hv : s.keyValid = true) :
    exec .dec s = .next ((s.setDataOut (decryptBlock s.mode s.material s.dataIn)).setErr .ok) :=
  if_neg (by simp [hv])

theorem encryptBlock_mode_irrel_of_holdsKey (hs : HoldsKey s) (hv : s.keyValid = true) (B : Block) (md me : Mode) :
    encryptBlock md s.material B = encryptBlock me s.material B := by
  obtain ⟨key, hkey⟩ := hs hv
  rw [hkey, encryptBlock_mode_irrel key B md me]

theorem decryptBlock_mode_irrel_of_holdsKey (hs : HoldsKey s) (hv : s.keyValid = true) (B : Block) (md me : Mode) :
    decryptBlock md s.material B = decryptBlock me s.material B := by
  obtain ⟨key, hkey⟩ := hs hv
  rw [hkey, decryptBlock_mode_irrel key B md me]

/-- A command that does not select the mode runs on a core in another `MODE` to the same state in that `MODE`. ENC and
DEC alone read `MODE`, and on a key's material both datapaths answer the same Block. -/
theorem exec_setMode (hs : HoldsKey s) (m : Mode) {i : Instr} (hi : ∀ m', i ≠ .cfg m') :
    ∃ t, exec i s = .next t ∧ exec i (s.setMode m) = .next (t.setMode m) ∧ t.mode = s.mode := by
  cases i with
  | nop | setkey | probe => exact ⟨_, rfl, rfl, rfl⟩
  | cfg m' => exact absurd rfl (hi m')
  | enc =>
    cases hv : s.keyValid with
    | false => exact ⟨_, exec_enc_of_unkeyed hv, exec_enc_of_unkeyed (s := s.setMode m) hv, rfl⟩
    | true =>
      refine ⟨_, exec_enc_of_keyed hv, ?_, rfl⟩
      rw [encryptBlock_mode_irrel_of_holdsKey hs hv _ s.mode m]
      exact exec_enc_of_keyed (s := s.setMode m) hv
  | dec =>
    cases hv : s.keyValid with
    | false => exact ⟨_, exec_dec_of_unkeyed hv, exec_dec_of_unkeyed (s := s.setMode m) hv, rfl⟩
    | true =>
      refine ⟨_, exec_dec_of_keyed hv, ?_, rfl⟩
      rw [decryptBlock_mode_irrel_of_holdsKey hs hv _ s.mode m]
      exact exec_dec_of_keyed (s := s.setMode m) hv

/-- CFG reads the asked mode and the build, never `MODE`: both cores take the same branch. -/
theorem exec_cfg_setMode (m m' : Mode) : ∃ t u, exec (.cfg m') s = .next t ∧
    exec (.cfg m') (s.setMode m) = .next u ∧ u = t.setMode u.mode := by
  by_cases hfault : m' = .fast ∧ s.build.hasFast = false
  · exact ⟨_, _, if_pos hfault, if_pos hfault, rfl⟩
  · exact ⟨_, _, if_neg hfault, if_neg hfault, rfl⟩

end

/-! ### The worked examples (R241 to R247) -/

/-- A pass over all indices follows a trace that every step follows. -/
theorem foldl_finRange_of_trace {α : Type} {n : Nat} {f : α → Fin n → α} {states : Fin (n + 1) → α}
    (h : ∀ r, f (states r.castSucc) r = states r.succ) :
    (List.finRange n).foldl f (states 0) = states (Fin.last n) := by
  induction n with
  | zero => rfl
  | succ n ih =>
    rw [List.finRange_succ, List.foldl_cons, List.foldl_map]
    have hfirst : f (states 0) 0 = states (Fin.succ 0) := h 0
    rw [hfirst]
    exact ih (f := fun a r => f a r.succ) (states := fun r => states r.succ) fun r => h r.succ

theorem encryptBlock_of_trace {md : Mode} {m : Material} {states : Fin 9 → Block}
    (h : ∀ r, encRound md m (states r.castSucc) r = states r.succ) :
    encryptBlock md m (states 0) = addPostWhitening m (states 8) :=
  congrArg (addPostWhitening m) (foldl_finRange_of_trace h)

theorem materialOf_sourceKey_post : (materialOf sourceKey).post = 0x88898D0EA524C7F27DE1E5AE := by
  rw [materialOf, deriveMaterial_sourceKey]
  rfl

theorem encryptBlock_sourceKey :
    encryptBlock .fast (materialOf sourceKey) 0x00112233445566778899AABB = 0x91887F21210206E90EBFF93D := by
  have hrounds : encryptBlock .fast (materialOf sourceKey) (printedTrace.val 0) =
      addPostWhitening (materialOf sourceKey) (printedTrace.val 8) := encryptBlock_of_trace printedTrace.property
  rw [addPostWhitening, materialOf_sourceKey_post] at hrounds
  exact hrounds

theorem subBytes_example : subBytes .fast 0x5EFB53285E5BAEE2BE1C89F5 = 0x580FED345839E498AE9CA7E6 := by
  rfl

theorem addRoundKey_example {m : Material} (h : m.rk[(0 : Fin 8)] = 0x5EEA711B1A0EC8953685234E) :
    addRoundKey m 0 0x00112233445566778899AABB = 0x5EFB53285E5BAEE2BE1C89F5 := by
  rw [addRoundKey, h]
  rfl

theorem materialOf_sourceKey_rk_zero : (materialOf sourceKey).rk[(0 : Fin 8)] = 0x5EEA711B1A0EC8953685234E := by
  rw [materialOf, deriveMaterial_sourceKey]
  rfl

theorem permuteRound_sourceKey (md : Mode) :
    permuteRound md (materialOf sourceKey) 0 0x580FED345839E498AE9CA7E6 = 0xC8EACB70A16F148D3375A796 := by
  calc permuteRound md (materialOf sourceKey) 0 0x580FED345839E498AE9CA7E6
    _ = permuteRound .fast (materialOf sourceKey) 0 0x580FED345839E498AE9CA7E6 :=
      permuteRound_mode_irrel sourceKey _ 0 md .fast
    _ = encRound .fast (materialOf sourceKey) 0x00112233445566778899AABB 0 := by
      rw [encRound, addRoundKey_example materialOf_sourceKey_rk_zero, subBytes_example]
    _ = 0xC8EACB70A16F148D3375A796 := printedTrace.property 0

/-! ### The obligations -/

/-- Settles O51: XOR and byte substitution act on each byte alone, and each stage has its inverse above. -/
theorem stagesActOnByteLanes : Obligations.StagesActOnByteLanes := by
  unfold Obligations.StagesActOnByteLanes
  refine ⟨fun m r S k => blockByte_xor S m.rk[r] k, fun m S k => blockByte_xor S m.post k,
    fun m r S => ⟨addRoundKey_addRoundKey m r S, addPostWhitening_addPostWhitening m S⟩, fun S k => ?_,
    fun md S => ⟨invSubBytes_subBytes md S, subBytes_invSubBytes md S⟩, subBytes_example,
    fun m h => addRoundKey_example h⟩
  exact ⟨blockByte_mapBytes _ S k, blockByte_mapBytes _ S k, blockByte_mapBytes _ S k, blockByte_mapBytes _ S k⟩

/-- Settles O53: each round undoes its counterpart, and the datapath makes no difference. -/
theorem decryptInvertsEncrypt : Obligations.DecryptInvertsEncrypt := by
  unfold Obligations.DecryptInvertsEncrypt
  exact fun key B md me => ⟨decryptBlock_encryptBlock key B md me, encryptBlock_decryptBlock key B md me⟩

/-- Settles O54: the datapaths agree on the material of a key, so only CFG, which sets `MODE`, tells the two cores
apart. -/
theorem modesAgree : Obligations.ModesAgree := by
  unfold Obligations.ModesAgree
  refine ⟨fun key B => ⟨encryptBlock_mode_irrel key B _ _, decryptBlock_mode_irrel key B _ _⟩,
    fun s m i hs => ?_⟩
  by_cases hi : ∃ m', i = .cfg m'
  · obtain ⟨m', rfl⟩ := hi
    obtain ⟨t, u, ht, hu, hut⟩ := exec_cfg_setMode (s := s) m m'
    exact ⟨t, u, ht, hu, hut, fun h => absurd rfl (h m')⟩
  · obtain ⟨t, ht, hu, hmode⟩ := exec_setMode hs m (not_exists.mp hi)
    exact ⟨t, t.setMode m, ht, hu, rfl, fun _ => ⟨rfl, hmode⟩⟩

/-- Settles O52: the orders are the definitions; the examples follow the source's trace, and decryption undoes it. -/
theorem roundsInOrder : Obligations.RoundsInOrder := by
  unfold Obligations.RoundsInOrder
  refine ⟨fun P S => ⟨rfl, rfl⟩, fun m r S => ⟨rfl, rfl, rfl, rfl⟩, permuteRound_sourceKey,
    fun md m S r => ⟨rfl, rfl⟩, fun md m B => ⟨rfl, rfl⟩, encryptBlock_sourceKey, ?_⟩
  rw [← encryptBlock_sourceKey]
  exact decryptBlock_encryptBlock sourceKey _ .fast .fast

end Sys2Proof.Machine
end

section
/-! PROOFS. The six commands (45_commands.md R271 to R277): what NOP, CFG, SETKEY and PROBE answer, the byte `STATUS`
from its fields, DEC after ENC, and the lifecycle of `KEY_VALID`. -/

namespace Sys2Proof.Machine

open Certificates

section
variable {s t : State}

/-! ### What the commands without a key answer (R271, R272, R276), and SETKEY (R273) -/

theorem exec_nop : exec .nop s = .next (s.setErr .ok) := complete_eq

theorem exec_cfg_fast_of_noFast (hf : s.build.hasFast = false) :
    exec (.cfg .fast) s = .next (s.setErr .fastImplDisabled) :=
  if_pos ⟨rfl, hf⟩

/-- The guard asks nothing of the old `MODE`: the key is dropped also when the mode does not change. -/
theorem exec_cfg_of_served {m : Mode} (hm : m = .fast → s.build.hasFast = true) :
    exec (.cfg m) s = .next ((s.setMode m).dropKey.setErr .ok) :=
  if_neg fun ⟨hfast, hf⟩ => Bool.eq_false_iff.mp hf (hm hfast)

theorem exec_setkey : exec .setkey s = .next ((s.installKey s.keyIn).setErr .ok) := complete_eq

theorem exec_probe : exec .probe s = .next ((s.setInfo (buildCap s.build)).setErr .ok) := complete_eq

/-! ### `STATUS` from its fields (10_state.md R34) -/

theorem State.status_of_fields {v : Byte} (m : Mode) (k : Bool) (e : ErrCode) (hm : s.mode = m)
    (hk : s.keyValid = k) (he : s.err = e) (hv : (0 : BitVec 2) ++ modeBit m ++ BitVec.ofBool k ++ e.code = v) :
    s.status = v := by
  rw [State.status, hm, hk, he, hv]

/-! ### The fields of `CAP` (10_state.md R35) -/

section
variable (b : Build)

theorem buildCap_hasFast : (buildCap b).getLsbD 0 = b.hasFast := by
  rw [buildCap, BitVec.getLsbD_append]
  simp

theorem buildCap_hasHardened : (buildCap b).getLsbD 1 = true := by
  rw [buildCap, BitVec.getLsbD_append, BitVec.getLsbD_append]
  simp [Config.hasHardened]

theorem buildCap_defaultImpl : (buildCap b).getLsbD 2 = true ↔ b.defaultImpl = .hardened := by
  rw [buildCap, BitVec.getLsbD_append, BitVec.getLsbD_append, BitVec.getLsbD_append]
  cases b.defaultImpl <;> simp [modeBit]

theorem buildCap_top : (buildCap b).extractLsb' 3 5 = 0 := by
  rw [buildCap, BitVec.extractLsb'_append_eq_of_le (by decide),
    BitVec.extractLsb'_append_eq_of_le (by decide), BitVec.extractLsb'_append_eq_of_le (by decide)]
  exact BitVec.extractLsb'_eq_self

end

/-! ### DEC after ENC (R275) -/

/-- On the material of a key decryption undoes encryption. -/
theorem exec_dec_of_ciphertext {B : Block} (hk : s.keyValid = true) (hs : HoldsKey s)
    (hin : s.dataIn = encryptBlock s.mode s.material B) : exec .dec s = .next ((s.setDataOut B).setErr .ok) := by
  obtain ⟨key, hkey⟩ := hs hk
  rw [exec_dec_of_keyed hk, hin, hkey, decryptBlock_encryptBlock]

/-- ENC changes nothing that DEC reads, so DEC on its result only puts its `DATA_IN` into `DATA_OUT`. -/
theorem exec_dec_of_exec_enc (hk : s.keyValid = true) (hs : HoldsKey s) (h : exec .enc s = .next t) :
    exec .dec { t with dataIn := t.dataOut } =
      .next { t with dataIn := t.dataOut, dataOut := s.dataIn } := by
  obtain rfl := next_inj.mp ((exec_enc_of_keyed hk).symm.trans h)
  exact exec_dec_of_ciphertext hk hs rfl

/-! ### The worked example on both datapaths (R274, R275) -/

theorem encryptBlock_sourceKey_of_mode (md : Mode) :
    encryptBlock md (materialOf sourceKey) 0x00112233445566778899AABB = 0x91887F21210206E90EBFF93D :=
  (encryptBlock_mode_irrel sourceKey _ md .fast).trans encryptBlock_sourceKey

theorem decryptBlock_sourceKey_of_mode (md : Mode) :
    decryptBlock md (materialOf sourceKey) 0x91887F21210206E90EBFF93D = 0x00112233445566778899AABB := by
  rw [← encryptBlock_sourceKey_of_mode md, decryptBlock_encryptBlock]

/-! ### The lifecycle of `KEY_VALID` (R277) -/

/-- Only a SETKEY or a CFG that succeeds writes `KEY_VALID`. -/
theorem keyValid_of_exec {i : Instr} (h : exec i s = .next t)
    (hi : t.err = .ok → i ≠ .setkey ∧ ∀ m, i ≠ .cfg m) : t.keyValid = s.keyValid := by
  obtain ⟨e, rfl, -⟩ | ⟨m, hcfg, -, rfl⟩ | ⟨hset, rfl⟩ | ⟨B, -, -, rfl⟩ | ⟨-, rfl⟩ := exec_cases i h
  · rfl
  · exact absurd hcfg ((hi rfl).2 m)
  · exact absurd hset (hi rfl).1
  · rfl
  · rfl

theorem keyValid_of_runCommand_fault (h : runCommand s = .next t) (hfault : t.err ≠ .ok) :
    t.keyValid = s.keyValid := by
  obtain ⟨i, -, hi⟩ | ⟨e, -, rfl⟩ := runCommand_cases h
  · exact keyValid_of_exec hi fun hok => absurd hok hfault
  · rfl

theorem keyValid_of_exec_cfg {m : Mode} (h : exec (.cfg m) s = .next t) (hok : t.err = .ok) :
    t.keyValid = false := by
  obtain ⟨-, -, rfl⟩ | ⟨-, rfl⟩ := execCfg_cases m h
  · exact absurd hok (by simp)
  · rfl

/-- ENC and DEC end in one of two ways, and `KEY_VALID` alone decides which. -/
theorem err_eq_ok_iff_keyValid_of_exec {i : Instr} (h : exec i s = .next t) (hi : i = .enc ∨ i = .dec) :
    t.err = .ok ↔ s.keyValid = true := by
  have hends : (s.keyValid = false ∧ t = s.setErr .noKey) ∨
      ∃ B, s.keyValid = true ∧ t = (s.setDataOut B).setErr .ok := by
    obtain rfl | rfl := hi
    · exact (execEnc_cases h).imp_right fun hend => ⟨_, hend⟩
    · exact (execDec_cases h).imp_right fun hend => ⟨_, hend⟩
  obtain ⟨hk, rfl⟩ | ⟨B, hk, rfl⟩ := hends
  · simp [hk]
  · simp [hk]

end

/-! ### The obligations -/

/-- Settles O14: `materialOf` stores the derived material, the table of each seed and its inverse; the printed values
are those of the source's known answer. -/
theorem setkeyInstallsMaterial : Obligations.SetkeyInstallsMaterial := by
  unfold Obligations.SetkeyInstallsMaterial
  obtain ⟨-, -, -, -, -, -, -, hsource⟩ := sourceKnownAnswer
  refine ⟨rfl, fun s => ⟨materialOf s.keyIn, exec_setkey, rfl, rfl, rfl, fun r => ?_⟩, fun s t hm h => ?_,
    congrArg Derived.rk hsource, congrArg Derived.post hsource⟩
  · exact ⟨materialOf_perm s.keyIn r, materialOf_invPerm s.keyIn r⟩
  · obtain rfl := execSetkey_cases h
    exact State.status_of_fields .fast true .ok hm rfl rfl rfl

/-- Settles O15: the two ends of ENC, and on the material of a key the datapaths agree. -/
theorem encWritesCiphertext : Obligations.EncWritesCiphertext := by
  unfold Obligations.EncWritesCiphertext
  exact ⟨rfl, fun s hk => exec_enc_of_unkeyed hk, fun s hk => exec_enc_of_keyed hk, rfl,
    fun s md hk hs => encryptBlock_mode_irrel_of_holdsKey hs hk _ s.mode md, encryptBlock_sourceKey_of_mode⟩

/-- Settles O16: the two ends of DEC, the agreement of the datapaths, and DEC after ENC. -/
theorem decWritesPlaintext : Obligations.DecWritesPlaintext := by
  unfold Obligations.DecWritesPlaintext
  refine ⟨rfl, fun s hk => exec_dec_of_unkeyed hk, fun s hk => exec_dec_of_keyed hk, rfl,
    fun s md hk hs => decryptBlock_mode_irrel_of_holdsKey hs hk _ s.mode md, fun s t u hk hs ht hu => ?_,
    decryptBlock_sourceKey_of_mode⟩
  obtain rfl := next_inj.mp ((exec_dec_of_exec_enc hk hs ht).symm.trans hu)
  rfl

/-- Settles O22: reset, SETKEY and a CFG that succeeds write `KEY_VALID`; every other end keeps it. -/
theorem lifecycleOfKeyValid : Obligations.LifecycleOfKeyValid := by
  unfold Obligations.LifecycleOfKeyValid
  refine ⟨fun b => rfl, fun s rest h => ⟨_, step_of_reset h, rfl⟩, fun s t h => ?_,
    fun s t m h hok => keyValid_of_exec_cfg h hok, fun i s t h hi => keyValid_of_exec h fun hok => ?_,
    fun s t h hfault => keyValid_of_runCommand_fault h hfault,
    fun i s t h hi => err_eq_ok_iff_keyValid_of_exec h hi⟩
  · rw [execSetkey_cases h]
    rfl
  · obtain rfl | rfl | rfl | rfl | hfault := hi
    case inr.inr.inr.inr => exact absurd hok hfault
    all_goals simp

/-- Settles O12: NOP only clears `ERR`, so `STATUS` keeps its mode and key bits. -/
theorem nopClearsError : Obligations.NopClearsError := by
  unfold Obligations.NopClearsError
  refine ⟨rfl, fun s => exec_nop, fun s hm hk he => ⟨?_, _, exec_nop, ?_⟩⟩
  · exact State.status_of_fields .hardened false .noKey hm hk he rfl
  · exact State.status_of_fields .hardened false .ok hm hk rfl rfl

/-- Settles O13: the two ends of CFG, the new material and counter being those `dropKey` draws. -/
theorem cfgSelectsModeDropsKey : Obligations.CfgSelectsModeDropsKey := by
  unfold Obligations.CfgSelectsModeDropsKey
  refine ⟨rfl, rfl, fun s hf => exec_cfg_fast_of_noFast hf, fun s m hm => ⟨_, _, exec_cfg_of_served hm⟩,
    ⟨?_, _, exec_cfg_of_served (by simp), rfl, ?_⟩, fun s hf hm hk => ⟨_, exec_cfg_fast_of_noFast hf, ?_⟩⟩
  · exact State.status_of_fields .fast false .ok rfl rfl rfl rfl
  · exact State.status_of_fields .hardened false .ok rfl rfl rfl rfl
  · exact State.status_of_fields .hardened false .fastImplDisabled hm hk rfl rfl

/-- Settles O17: PROBE writes `buildCap`, whose fields are read off bit by bit. -/
theorem probeReportsBuild : Obligations.ProbeReportsBuild := by
  unfold Obligations.ProbeReportsBuild
  exact ⟨rfl, fun s => ⟨buildCap s.build, exec_probe, buildCap_hasFast s.build, buildCap_hasHardened s.build,
    buildCap_defaultImpl s.build, buildCap_top s.build⟩, rfl, rfl⟩

end Sys2Proof.Machine
end

section
/-! PROOFS. The faults (60_exceptions.md R301 to R306): the byte behind an illegal command, what a command that ends
with a fault did, the one cause of each code, and the steps that raise them. -/

namespace Sys2Proof.Machine

open Certificates

/-- The bytes outside the seven legal ones are those the decoder rejects (R305). -/
theorem not_mem_legalBytes_iff {b : Byte} : b ∉ legalBytes ↔ ∃ e, decode b = .error e := by
  rw [← exists_decode_ok_iff_mem_legalBytes]
  cases decode b <;> simp

section
variable {s t : State} {i : Instr}

/-! ### Every command ends (R301) -/

theorem runCommand_of_decode_ok (h : decode s.cmd = .ok i) : runCommand s = exec i s := by
  rw [runCommand, h]

theorem exec_completes (i : Instr) (s : State) : ∃ t, exec i s = .next t := by
  cases i with
  | nop => exact ⟨_, exec_nop⟩
  | cfg m =>
    by_cases hm : m = .fast → s.build.hasFast = true
    · exact ⟨_, exec_cfg_of_served hm⟩
    · obtain ⟨rfl, hf⟩ := Classical.not_imp.mp hm
      exact ⟨_, exec_cfg_fast_of_noFast (Bool.eq_false_iff.mpr hf)⟩
  | setkey => exact ⟨_, exec_setkey⟩
  | enc =>
    cases hk : s.keyValid with
    | false => exact ⟨_, exec_enc_of_unkeyed hk⟩
    | true => exact ⟨_, exec_enc_of_keyed hk⟩
  | dec =>
    cases hk : s.keyValid with
    | false => exact ⟨_, exec_dec_of_unkeyed hk⟩
    | true => exact ⟨_, exec_dec_of_keyed hk⟩
  | probe => exact ⟨_, exec_probe⟩

theorem runCommand_completes (s : State) : ∃ t, runCommand s = .next t := by
  cases hd : decode s.cmd with
  | ok i =>
    rw [runCommand_of_decode_ok hd]
    exact exec_completes i s
  | error e => exact ⟨_, runCommand_of_decode_error hd⟩

/-! ### What a command that ends with a fault did (R301, R303, R306) -/

/-- A command that ends with a fault wrote `ERR` alone, for one of two reasons. -/
theorem exec_fault_cases (h : exec i s = .next t) (hfault : t.err ≠ .ok) :
    t = s.setErr t.err ∧
      ((t.err = .noKey ∧ (i = .enc ∨ i = .dec) ∧ s.keyValid = false) ∨
        (t.err = .fastImplDisabled ∧ i = .cfg .fast ∧ s.build.hasFast = false)) := by
  obtain ⟨e, rfl, -, hill, hkey, hfast⟩ | ⟨m, -, -, rfl⟩ | ⟨-, rfl⟩ | ⟨B, -, -, rfl⟩ | ⟨-, rfl⟩ := exec_cases i h
  case inl =>
    refine ⟨rfl, ?_⟩
    cases e with
    | ok => exact absurd rfl hfault
    | illegalCmd => exact absurd rfl hill
    | noKey => exact .inl ⟨rfl, (hkey rfl).symm⟩
    | fastImplDisabled => exact .inr ⟨rfl, (hfast rfl).symm⟩
  all_goals exact absurd rfl hfault

theorem runCommand_fault_writes_only_err (h : runCommand s = .next t) (hfault : t.err ≠ .ok) :
    t = s.setErr t.err := by
  obtain ⟨i, -, hi⟩ | ⟨e, -, rfl⟩ := runCommand_cases h
  · exact (exec_fault_cases hi hfault).1
  · rfl

/-! ### The one cause of each code (R302) -/

theorem exec_err_ne_illegalCmd (h : exec i s = .next t) : t.err ≠ .illegalCmd := fun he => by
  obtain ⟨-, ⟨hcode, -⟩ | ⟨hcode, -⟩⟩ := exec_fault_cases h (by simp [he])
  · simp [he] at hcode
  · simp [he] at hcode

theorem exec_err_eq_noKey_iff (h : exec i s = .next t) :
    t.err = .noKey ↔ (i = .enc ∨ i = .dec) ∧ s.keyValid = false := by
  constructor
  · intro he
    obtain ⟨-, ⟨-, hcause⟩ | ⟨hcode, -⟩⟩ := exec_fault_cases h (by simp [he])
    · exact hcause
    · simp [he] at hcode
  · rintro ⟨rfl | rfl, hk⟩
    · rw [← next_inj.mp ((exec_enc_of_unkeyed hk).symm.trans h), State.setErr_err]
    · rw [← next_inj.mp ((exec_dec_of_unkeyed hk).symm.trans h), State.setErr_err]

theorem exec_err_eq_fastImplDisabled_iff (h : exec i s = .next t) :
    t.err = .fastImplDisabled ↔ i = .cfg .fast ∧ s.build.hasFast = false := by
  constructor
  · intro he
    obtain ⟨-, ⟨hcode, -⟩ | ⟨-, hcause⟩⟩ := exec_fault_cases h (by simp [he])
    · simp [he] at hcode
    · exact hcause
  · rintro ⟨rfl, hf⟩
    rw [← next_inj.mp ((exec_cfg_fast_of_noFast hf).symm.trans h), State.setErr_err]

/-- The decoder raises ILLEGAL_CMD, and no command does. -/
theorem runCommand_err_eq_illegalCmd_iff (h : runCommand s = .next t) :
    t.err = .illegalCmd ↔ s.cmd ∉ legalBytes := by
  rw [not_mem_legalBytes_iff]
  obtain ⟨i, hd, hi⟩ | ⟨e, hd, rfl⟩ := runCommand_cases h
  · exact iff_of_false (exec_err_ne_illegalCmd hi) (by simp [hd])
  · exact iff_of_true rfl ⟨e, hd⟩

theorem runCommand_err_eq_noKey_iff (h : runCommand s = .next t) :
    t.err = .noKey ↔ (decode s.cmd = .ok .enc ∨ decode s.cmd = .ok .dec) ∧ s.keyValid = false := by
  obtain ⟨i, hd, hi⟩ | ⟨e, hd, rfl⟩ := runCommand_cases h
  · rw [exec_err_eq_noKey_iff hi, hd, Except.ok.injEq, Except.ok.injEq]
  · simp [hd]

theorem runCommand_err_eq_fastImplDisabled_iff (h : runCommand s = .next t) :
    t.err = .fastImplDisabled ↔ decode s.cmd = .ok (.cfg .fast) ∧ s.build.hasFast = false := by
  obtain ⟨i, hd, hi⟩ | ⟨e, hd, rfl⟩ := runCommand_cases h
  · rw [exec_err_eq_fastImplDisabled_iff hi, hd, Except.ok.injEq]
  · simp [hd]

/-! ### A step whose host issues a command -/

theorem step_of_command {tr : Transaction} {rest : List HostEvent} (h : s.host = .command tr :: rest) :
    step s = runCommand (State.sample tr { s with host := rest }) :=
  step_of_host_cons h

theorem step_of_encoded_command {tr : Transaction} {rest : List HostEvent} (h : s.host = .command tr :: rest)
    (hcmd : tr.cmd = encode i) : step s = exec i (State.sample tr { s with host := rest }) :=
  (step_of_command h).trans (runCommand_of_decode_ok (decode_eq_ok_iff.mpr hcmd))

end

/-! ### The obligations -/

/-- Settles O18: a fault is one of the ends that only write `ERR`, every command has an end, and none reads the old
`ERR`. -/
theorem faultWritesOnlyErr : Obligations.FaultWritesOnlyErr := by
  unfold Obligations.FaultWritesOnlyErr
  exact ⟨fun s t h hfault => runCommand_fault_writes_only_err h hfault,
    fun i s t h hfault => (exec_fault_cases h hfault).1, runCommand_completes, runCommand_setErr⟩

/-- Settles O19: the four codes, and the cause of each by its lemma. -/
theorem faultCodesAndCauses : Obligations.FaultCodesAndCauses := by
  unfold Obligations.FaultCodesAndCauses
  refine ⟨rfl, rfl, rfl, rfl, fun e => ?_, fun s t h => ?_⟩
  · cases e with
    | ok | illegalCmd | noKey | fastImplDisabled => decide
  · exact ⟨runCommand_err_eq_illegalCmd_iff h, runCommand_err_eq_noKey_iff h,
      runCommand_err_eq_fastImplDisabled_iff h⟩

/-- Settles O7: the bytes outside the seven are those with ill-formed fields, and the decoder rejects them. -/
theorem stepRaisesIllegalCommand : Obligations.StepRaisesIllegalCommand := by
  unfold Obligations.StepRaisesIllegalCommand
  refine ⟨fun b => ?_, rfl, fun s t rest h hcmd => ?_⟩
  · exact not_mem_legalBytes_iff.trans (exists_decode_error_iff.trans fieldsOf_wf_eq_false_iff)
  · obtain ⟨e, he⟩ := not_mem_legalBytes_iff.mp hcmd
    exact (step_of_command h).trans (runCommand_of_decode_error he)

/-- Settles O8: sampling the ports changes neither `KEY_VALID` nor the build, so the command meets its fault; both
resets and a CFG that succeeds drop the key. -/
theorem stepRaisesCommandFaults : Obligations.StepRaisesCommandFaults := by
  unfold Obligations.StepRaisesCommandFaults
  refine ⟨fun s t rest h hcmd hk => ?_, fun s t rest h hcmd hf => ?_, rfl, rfl, fun b => rfl,
    fun s => s.takeReset_keyValid, fun s t m h hok => keyValid_of_exec_cfg h hok⟩
  · obtain hcmd | hcmd := hcmd
    · exact (step_of_encoded_command (i := .enc) h hcmd).trans (exec_enc_of_unkeyed hk)
    · exact (step_of_encoded_command (i := .dec) h hcmd).trans (exec_dec_of_unkeyed hk)
  · exact (step_of_encoded_command (i := .cfg .fast) h hcmd).trans (exec_cfg_fast_of_noFast hf)

end Sys2Proof.Machine
end

section
/-! PROOFS. The invariant `Safe` (10_state.md section 5): each end of a command keeps it, so every step does; what it
says of `STATUS` and of the permutation tables. -/

namespace Sys2Proof.Machine

/-! ### The state after reset -/

theorem Build.hasFast_of_wf {b : Build} (hb : b.wf = true) (hd : b.defaultImpl = .fast) : b.hasFast = true := by
  simpa [Build.wf, hd] using hb

theorem safe_resetOf {b : Build} (hb : b.wf = true) : Safe (State.resetOf b) where
  build := hb
  mode := Build.hasFast_of_wf hb
  key h := nomatch h
  noKey _ := rfl
  noFast h := nomatch h
  info := .inl rfl

/-! ### Each end of a command and each event keeps `Safe` -/

section
variable {s t : State} (hs : Safe s)
include hs

/-- A code in `ERR` is safe when its cause is there. -/
theorem Safe.setErr {e : ErrCode} (hkey : e = .noKey → s.keyValid = false)
    (hfast : e = .fastImplDisabled → s.build.hasFast = false) : Safe (s.setErr e) where
  build := hs.build
  mode := hs.mode
  key := hs.key
  noKey := hkey
  noFast := hfast
  info := hs.info

theorem Safe.setMode_dropKey_ok {m : Mode} (hm : m = .fast → s.build.hasFast = true) :
    Safe ((s.setMode m).dropKey.setErr .ok) where
  build := hs.build
  mode := hm
  key h := nomatch h
  noKey _ := rfl
  noFast h := nomatch h
  info := hs.info

theorem Safe.installKey_ok (key : Block) : Safe ((s.installKey key).setErr .ok) where
  build := hs.build
  mode := hs.mode
  key _ := ⟨key, rfl⟩
  noKey h := nomatch h
  noFast h := nomatch h
  info := hs.info

theorem Safe.setDataOut (B : Block) : Safe (s.setDataOut B) where
  build := hs.build
  mode := hs.mode
  key := hs.key
  noKey := hs.noKey
  noFast := hs.noFast
  info := hs.info

theorem Safe.setInfo_cap : Safe (s.setInfo (buildCap s.build)) where
  build := hs.build
  mode := hs.mode
  key := hs.key
  noKey := hs.noKey
  noFast := hs.noFast
  info := .inr rfl

/-- The ports and the host's list play no part in `Safe`. -/
theorem Safe.sample (tr : Transaction) : Safe (s.sample tr) where
  build := hs.build
  mode := hs.mode
  key := hs.key
  noKey := hs.noKey
  noFast := hs.noFast
  info := hs.info

theorem Safe.setHost (rest : List HostEvent) : Safe { s with host := rest } where
  build := hs.build
  mode := hs.mode
  key := hs.key
  noKey := hs.noKey
  noFast := hs.noFast
  info := hs.info

theorem Safe.takeReset : Safe s.takeReset where
  build := hs.build
  mode := Build.hasFast_of_wf hs.build
  key h := nomatch h
  noKey _ := rfl
  noFast h := nomatch h
  info := .inl rfl

theorem Safe.exec {i : Instr} (h : exec i s = .next t) : Safe t := by
  obtain ⟨e, rfl, -, -, hkey, hfast⟩ | ⟨m, -, hm, rfl⟩ | ⟨-, rfl⟩ | ⟨B, -, -, rfl⟩ | ⟨-, rfl⟩ := exec_cases i h
  · exact hs.setErr (fun he => (hkey he).1) (fun he => (hfast he).1)
  · exact hs.setMode_dropKey_ok hm
  · exact hs.installKey_ok s.keyIn
  · exact (hs.setDataOut B).setErr nofun nofun
  · exact hs.setInfo_cap.setErr nofun nofun

theorem Safe.runCommand (h : runCommand s = .next t) : Safe t := by
  obtain ⟨i, -, hi⟩ | ⟨e, -, rfl⟩ := runCommand_cases h
  · exact hs.exec hi
  · exact hs.setErr nofun nofun

theorem Safe.step (h : step s = .next t) : Safe t := by
  obtain ⟨-, rfl⟩ | ⟨tr, rest, -, hrun⟩ | ⟨rest, -, rfl⟩ | ⟨tr, rest, -, rfl⟩ := step_cases h
  · exact hs
  · exact ((hs.setHost rest).sample tr).runCommand hrun
  · exact (hs.setHost rest).takeReset
  · exact ((hs.setHost rest).sample tr).takeReset

/-! ### What `Safe` says of `STATUS` (95_test_vectors.md section 8) -/

theorem Safe.mode_of_noFast (hf : s.build.hasFast = false) : s.mode = .hardened := by
  cases hm : s.mode with
  | fast => exact absurd (hs.mode hm) (by simp [hf])
  | hardened => rfl

end

theorem ErrCode.eq_fastImplDisabled_of_code {e : ErrCode} (h : e.code = 3) : e = .fastImplDisabled := by
  cases e with
  | fastImplDisabled => rfl
  | ok | illegalCmd | noKey => exact absurd h (by decide)

/-- Of the sixteen combinations of the fields, NO_KEY with a key and FAST_IMPL_DISABLED in Fast mode drop out. -/
theorem statusBits_mem_of_causes {m : Mode} {k : Bool} {e : ErrCode} (hkey : e = .noKey → k = false)
    (hfast : e = .fastImplDisabled → m = .hardened) :
    (0 : BitVec 2) ++ modeBit m ++ BitVec.ofBool k ++ e.code ∈
      ([0x00, 0x10, 0x20, 0x30, 0x01, 0x11, 0x21, 0x31, 0x02, 0x22, 0x23, 0x33] : List Byte) := by
  cases e with
  | ok | illegalCmd => cases m <;> cases k <;> decide
  | noKey =>
    obtain rfl := hkey rfl
    cases m <;> decide
  | fastImplDisabled =>
    obtain rfl := hfast rfl
    cases k <;> decide

/-! ### The obligations -/

/-- Settles O57: every event of the host ends in an update that keeps each clause of `Safe`, or gives it its cause
anew. -/
theorem everyStepKeepsSafe : Obligations.EveryStepKeepsSafe := by
  unfold Obligations.EveryStepKeepsSafe
  exact fun s t hs h => hs.step h

/-- Settles O56: the reset state is unkeyed and without a fault, and its `MODE` is legal by the constraint on the
build. -/
theorem resetIsSafe : Obligations.ResetIsSafe := by
  unfold Obligations.ResetIsSafe
  exact ⟨rfl, safe_resetOf rfl, fun b hb => safe_resetOf hb⟩

/-- Settles O58: `Safe` gives NO_KEY and FAST_IMPL_DISABLED their causes, and ties the mode bit to the build. -/
theorem statusValuesThatOccur : Obligations.StatusValuesThatOccur := by
  unfold Obligations.StatusValuesThatOccur
  refine fun s hs => ⟨?_, fun hf hcode => ?_, fun hf => s.status_mode.mpr (hs.mode_of_noFast hf)⟩
  · exact statusBits_mem_of_causes hs.noKey fun he => hs.mode_of_noFast (hs.noFast he)
  · rw [State.status_err] at hcode
    have hnoFast := hs.noFast (ErrCode.eq_fastImplDisabled_of_code hcode)
    exact absurd hf (by simp [hnoFast])

/-- Settles O59: a keyed core holds the material of a key, whose tables are built from their seeds. -/
theorem keyedTablesAreInverse : Obligations.KeyedTablesAreInverse := by
  unfold Obligations.KeyedTablesAreInverse
  intro s hs hk r
  obtain ⟨key, hkey⟩ := hs.key hk
  rw [hkey]
  have hP := permBijective_materialOf_perm key r
  refine ⟨materialOf_perm key r, hP, materialOf_invPerm key r, fun i => ?_⟩
  rw [materialOf_invPerm, permAt_invert_permAt hP]

end Sys2Proof.Machine
end

section
/-! PROOFS. Steps and frames: what one event of the host leads to, which registers a command leaves alone, which ports
and registers it does not read (10_state.md section 5, 30_encoding.md section 3), and the decoder's round trips. -/

namespace Sys2Proof.Machine

/-! ### One event of the host (10_state.md R20, 70_reset_and_hazards.md R331, R344) -/

section
variable {s t : State} {i : Instr}

theorem step_of_host_nil (h : s.host = []) : step s = .next s := by
  simp only [step, h]

theorem step_of_resetDuring {tr : Transaction} {rest : List HostEvent} (h : s.host = .resetDuring tr :: rest) :
    step s = .next (State.sample tr { s with host := rest }).takeReset :=
  step_of_host_cons h

theorem step_completes (s : State) : StepCompletes s := by
  cases hh : s.host with
  | nil => exact ⟨s, step_of_host_nil hh⟩
  | cons e rest =>
    cases e with
    | command tr =>
      obtain ⟨t, ht⟩ := runCommand_completes (State.sample tr { s with host := rest })
      exact ⟨t, (step_of_command hh).trans ht⟩
    | reset => exact ⟨_, step_of_reset hh⟩
    | resetDuring tr => exact ⟨_, step_of_resetDuring hh⟩

/-! ### What a command leaves alone (10_state.md R41) -/

theorem ports_of_exec (h : exec i s = .next t) :
    t.cmd = s.cmd ∧ t.keyIn = s.keyIn ∧ t.dataIn = s.dataIn ∧ t.build = s.build ∧ t.host = s.host := by
  obtain ⟨e, rfl, -⟩ | ⟨m, -, -, rfl⟩ | ⟨-, rfl⟩ | ⟨B, -, -, rfl⟩ | ⟨-, rfl⟩ := exec_cases i h
  all_goals exact ⟨rfl, rfl, rfl, rfl, rfl⟩

theorem info_of_exec (h : exec i s = .next t) (hi : i ≠ .probe) : t.info = s.info := by
  obtain ⟨e, rfl, -⟩ | ⟨m, -, -, rfl⟩ | ⟨-, rfl⟩ | ⟨B, -, -, rfl⟩ | ⟨hprobe, -⟩ := exec_cases i h
  case inr.inr.inr.inr => exact absurd hprobe hi
  all_goals rfl

theorem dataOut_of_exec (h : exec i s = .next t) (henc : i ≠ .enc) (hdec : i ≠ .dec) :
    t.dataOut = s.dataOut := by
  obtain ⟨e, rfl, -⟩ | ⟨m, -, -, rfl⟩ | ⟨-, rfl⟩ | ⟨B, ⟨hi, -⟩ | ⟨hi, -⟩, -⟩ | ⟨-, rfl⟩ := exec_cases i h
  case inr.inr.inr.inl.inl => exact absurd hi henc
  case inr.inr.inr.inl.inr => exact absurd hi hdec
  all_goals rfl

theorem mode_of_exec (h : exec i s = .next t) (hi : ∀ m, i ≠ .cfg m) : t.mode = s.mode := by
  obtain ⟨e, rfl, -⟩ | ⟨m, hcfg, -⟩ | ⟨-, rfl⟩ | ⟨B, -, -, rfl⟩ | ⟨-, rfl⟩ := exec_cases i h
  case inr.inl => exact absurd hcfg (hi m)
  all_goals rfl

theorem material_of_exec (h : exec i s = .next t) (hcfg : ∀ m, i ≠ .cfg m) (hset : i ≠ .setkey) :
    t.material = s.material := by
  obtain ⟨e, rfl, -⟩ | ⟨m, hi, -⟩ | ⟨hi, -⟩ | ⟨B, -, -, rfl⟩ | ⟨-, rfl⟩ := exec_cases i h
  case inr.inl => exact absurd hi (hcfg m)
  case inr.inr.inl => exact absurd hi hset
  all_goals rfl

end

/-! ### What a command does not read (30_encoding.md R84, 45_commands.md R278) -/

/-- CFG ends as the asked mode and the build say, whatever else the state holds. -/
theorem exec_cfg_ends (b : Build) (m : Mode) :
    (∀ t : State, t.build = b → exec (.cfg m) t = .next (t.setErr .fastImplDisabled)) ∨
      ∀ t : State, t.build = b → exec (.cfg m) t = .next ((t.setMode m).dropKey.setErr .ok) := by
  by_cases hm : m = .fast → b.hasFast = true
  · exact .inr fun t ht => exec_cfg_of_served (ht ▸ hm)
  · obtain ⟨rfl, hf⟩ := Classical.not_imp.mp hm
    exact .inl fun t ht => exec_cfg_fast_of_noFast (ht ▸ Bool.eq_false_iff.mpr hf)

section
variable (s : State)

/-- Other values on the ports that a command does not read stay there, and nothing else comes out otherwise. -/
theorem exec_ports_irrel (i : Instr) (k d : Block) (hk : i = .setkey → k = s.keyIn)
    (hd : i = .enc ∨ i = .dec → d = s.dataIn) : ∃ t, exec i s = .next t ∧
      exec i { s with keyIn := k, dataIn := d } = .next { t with keyIn := k, dataIn := d } := by
  cases i with
  | nop | probe => exact ⟨_, rfl, rfl⟩
  | cfg m =>
    obtain hend | hend := exec_cfg_ends s.build m
    · exact ⟨_, hend s rfl, hend _ rfl⟩
    · exact ⟨_, hend s rfl, hend _ rfl⟩
  | setkey =>
    obtain rfl := hk rfl
    exact ⟨_, rfl, rfl⟩
  | enc =>
    obtain rfl := hd (.inl rfl)
    obtain hv | hv := Bool.eq_false_or_eq_true s.keyValid
    · exact ⟨_, exec_enc_of_keyed hv, exec_enc_of_keyed (s := { s with keyIn := k }) hv⟩
    · exact ⟨_, exec_enc_of_unkeyed hv, exec_enc_of_unkeyed (s := { s with keyIn := k }) hv⟩
  | dec =>
    obtain rfl := hd (.inr rfl)
    obtain hv | hv := Bool.eq_false_or_eq_true s.keyValid
    · exact ⟨_, exec_dec_of_keyed hv, exec_dec_of_keyed (s := { s with keyIn := k }) hv⟩
    · exact ⟨_, exec_dec_of_unkeyed hv, exec_dec_of_unkeyed (s := { s with keyIn := k }) hv⟩

theorem exec_keyIn_irrel {i : Instr} (k : Block) (hi : i ≠ .setkey) :
    ∃ t, exec i s = .next t ∧ exec i { s with keyIn := k } = .next { t with keyIn := k } := by
  obtain ⟨t, ht, hu⟩ := exec_ports_irrel s i k s.dataIn (absurd · hi) (fun _ => rfl)
  obtain ⟨-, -, hdata, -⟩ := ports_of_exec ht
  exact ⟨t, ht, by rw [hu, hdata]⟩

theorem exec_dataIn_irrel {i : Instr} (d : Block) (henc : i ≠ .enc) (hdec : i ≠ .dec) :
    ∃ t, exec i s = .next t ∧ exec i { s with dataIn := d } = .next { t with dataIn := d } := by
  obtain ⟨t, ht, hu⟩ := exec_ports_irrel s i s.keyIn d (fun _ => rfl) (absurd · (not_or.mpr ⟨henc, hdec⟩))
  obtain ⟨-, hkey, -⟩ := ports_of_exec ht
  exact ⟨t, ht, by rw [hu, hkey]⟩

/-- Only an ENC or DEC on a keyed core reads the material; what a CFG or SETKEY writes there is not in the host's
view. -/
theorem exec_material_irrel (i : Instr) (mat : Material) (hi : i = .enc ∨ i = .dec → s.keyValid = false) :
    ∃ t u, exec i s = .next t ∧ exec i { s with material := mat } = .next u ∧ t.hostView = u.hostView := by
  cases i with
  | nop | setkey | probe => exact ⟨_, _, rfl, rfl, rfl⟩
  | cfg m =>
    obtain hend | hend := exec_cfg_ends s.build m
    · exact ⟨_, _, hend s rfl, hend _ rfl, rfl⟩
    · exact ⟨_, _, hend s rfl, hend _ rfl, rfl⟩
  | enc =>
    have hv := hi (.inl rfl)
    exact ⟨_, _, exec_enc_of_unkeyed hv, exec_enc_of_unkeyed (s := { s with material := mat }) hv, rfl⟩
  | dec =>
    have hv := hi (.inr rfl)
    exact ⟨_, _, exec_dec_of_unkeyed hv, exec_dec_of_unkeyed (s := { s with material := mat }) hv, rfl⟩

end

/-! ### The obligations -/

/-- Settles O1: each command's byte has its well-formed fields, which name it alone. -/
theorem decodeEncodeRoundTrip : Obligations.DecodeEncodeRoundTrip := by
  unfold Obligations.DecodeEncodeRoundTrip
  exact fun i => ⟨(encodingFitsRow i).1, decode_encode i⟩

/-- Settles O2: the fields of a byte that decodes are those of its command, and they are the whole byte. -/
theorem encodeDecodeRoundTrip : Obligations.EncodeDecodeRoundTrip := by
  unfold Obligations.EncodeDecodeRoundTrip
  exact fun b i h => (decode_eq_ok_iff.mp h).symm

/-- Settles O5: the legal bytes are the bytes of their commands; the decoder evaluates the four illegal ones. -/
theorem printedBytesDecode : Obligations.PrintedBytesDecode := by
  unfold Obligations.PrintedBytesDecode
  exact ⟨decode_encode .nop, decode_encode (.cfg .fast), decode_encode (.cfg .hardened), decode_encode .setkey,
    decode_encode .enc, decode_encode .dec, decode_encode .probe, by decide⟩

/-- Settles O6: the step samples the ports and takes the event, and the sampled byte decodes to the command. -/
theorem stepRunsDecodedCommand : Obligations.StepRunsDecodedCommand := by
  unfold Obligations.StepRunsDecodedCommand
  exact fun s t rest i h hd => (step_of_command h).trans (runCommand_of_decode_ok hd)

/-- Settles O9: with no event the step is idle. -/
theorem idleStepKeepsState : Obligations.IdleStepKeepsState := by
  unfold Obligations.IdleStepKeepsState
  exact fun s h => step_of_host_nil h

/-- Settles O11: the abandoned command only leaves its transaction on the ports, which a reset does not touch. -/
theorem resetAbandonsCommand : Obligations.ResetAbandonsCommand := by
  unfold Obligations.ResetAbandonsCommand
  refine fun s t rest => ⟨State.takeReset { s with host := rest }, step_of_reset rfl, rfl, rfl, rfl, rfl, ?_⟩
  exact step_of_resetDuring (s := { s with host := .resetDuring t :: rest }) rfl

/-- Settles O21: every command has an end, and so has every event of the host. -/
theorem everyStepCompletes : Obligations.EveryStepCompletes := by
  unfold Obligations.EveryStepCompletes
  exact ⟨exec_completes, step_completes⟩

/-- Settles O23: each end of a command is an update of the registers it writes. -/
theorem registersWrittenOnlyByTheirCommands : Obligations.RegistersWrittenOnlyByTheirCommands := by
  unfold Obligations.RegistersWrittenOnlyByTheirCommands
  exact fun i s t h => ⟨info_of_exec h, dataOut_of_exec h, mode_of_exec h, fun hcfg hset =>
    ⟨keyValid_of_exec h fun _ => ⟨hset, hcfg⟩, material_of_exec h hcfg hset⟩, ports_of_exec h⟩

/-- Settles O24: no guard reads a port, and of the results only SETKEY's reads `KEY_IN`, and only ENC's and DEC's
read `DATA_IN`. -/
theorem unreadPortsIgnored : Obligations.UnreadPortsIgnored := by
  unfold Obligations.UnreadPortsIgnored
  exact ⟨fun i s k hi => exec_keyIn_irrel s k hi, fun i s d henc hdec => exec_dataIn_irrel s d henc hdec⟩

/-- Settles O25: without a key ENC and DEC only fault, and no other command passes the material on. -/
theorem materialNotReadable : Obligations.MaterialNotReadable := by
  unfold Obligations.MaterialNotReadable
  exact fun i s mat hi => exec_material_irrel s i mat hi

/-- Settles O55: the result is a function of the material, `DATA_IN` and `MODE`, and on the material of a key the
modes agree. -/
theorem outputDependsOnKeyAndBlock : Obligations.OutputDependsOnKeyAndBlock := by
  unfold Obligations.OutputDependsOnKeyAndBlock
  rintro s t s' t' i (rfl | rfl) hks hkt hs hmat hin hs' ht'
  · obtain rfl := next_inj.mp ((exec_enc_of_keyed hks).symm.trans hs')
    obtain rfl := next_inj.mp ((exec_enc_of_keyed hkt).symm.trans ht')
    simp only [State.setErr_dataOut, State.setDataOut_dataOut, ← hmat, ← hin]
    exact encryptBlock_mode_irrel_of_holdsKey hs hks s.dataIn s.mode t.mode
  · obtain rfl := next_inj.mp ((exec_dec_of_keyed hks).symm.trans hs')
    obtain rfl := next_inj.mp ((exec_dec_of_keyed hkt).symm.trans ht')
    simp only [State.setErr_dataOut, State.setDataOut_dataOut, ← hmat, ← hin]
    exact decryptBlock_mode_irrel_of_holdsKey hs hks s.dataIn s.mode t.mode

end Sys2Proof.Machine
end

section
/-! PROOFS. The remaining statements about the units: packing a Block, the S-box, the masked product, the HMAC key rule
and the printed digests, the primitives' inverses, the product of the picks, the masked merge. -/

namespace Sys2Proof.Machine

open Certificates

/-! ### Packing and unpacking (40_bitindex.md R110) -/

/-- Packing is a pass of bit stores along the identity. -/
theorem getBit_pack (bits : Fin 96 → Bool) (i : Fin 96) : getBit (pack bits) i = bits i := by
  have hw : WritesAlong getBit (fun S i => setBit S i (bits i)) (fun src _ => bits src) permId := by
    intro S src dst
    simp only [permId_get, getBit_setBit, eq_comm]
  have hpass := hw.pass_get permBijective_permId.injective 0 i
  rwa [permId_get] at hpass

theorem pack_getBit (S : Block) : pack (getBit S) = S := block_eq_of_bits (getBit_pack _)

theorem unpack_pack (bits : Fin 96 → Bool) : unpack (pack bits) = (List.finRange 96).map bits :=
  List.map_congr_left fun i _ => getBit_pack bits i

/-- Settles O29: every bit store of the pass stays. -/
theorem packUnpackInverse : Obligations.PackUnpackInverse := by
  unfold Obligations.PackUnpackInverse
  exact ⟨pack_getBit, getBit_pack, unpack_pack⟩

/-! ### The S-box and the masked product (41_sbox.md R122, R127, R128, R134) -/

theorem subFast_bijective : Function.Bijective subFast :=
  Finite.injective_iff_bijective.mp (Function.LeftInverse.injective invSubFast_subFast)

theorem subFast_no_fixed_point : ∀ a : Byte, subFast a ≠ a ∧ subFast a ≠ a ^^^ 0xFF := by
  decide +kernel

/-- The inverse is read off the forward ROM: this spares the powers. -/
theorem gmul_gfInv {a : Byte} (ha : a ≠ 0) : gmul a (gfInv a) = 1 := by
  rw [gfInv_eq_invAffine_subFast]
  revert a
  decide +kernel

/-- Settles O31: the inverse ROM undoes the forward one on finitely many bytes, so both are bijections; the rest holds
byte by byte. -/
theorem sboxIsBijective : Obligations.SboxIsBijective := by
  unfold Obligations.SboxIsBijective
  exact ⟨subFast_bijective, fun a => ⟨subByte_invSubByte .fast a, subFast_no_fixed_point a⟩, by decide +kernel,
    fun a ha => gmul_gfInv ha⟩

/-- Settles O33: `spread` makes a mask of one bit, so both products are the same masked sum. -/
theorem maskedProductIsFieldProduct : Obligations.MaskedProductIsFieldProduct := by
  unfold Obligations.MaskedProductIsFieldProduct
  exact ⟨spread_eq_ite, ctXtime_eq_xtime, ctGmul_eq_gmul⟩

/-! ### The HMAC key rule and the printed digests (42_keyschedule.md R158, R160, R161) -/

theorem hmacKey_of_le {Kh : List Byte} (h : Kh.length ≤ 64) :
    hmacKey Kh = Kh ++ List.replicate (64 - Kh.length) 0 := by
  simp only [hmacKey, if_pos h]

theorem hmacKey_of_long {Kh : List Byte} (h : 64 < Kh.length) : hmacKey Kh = hmacKey (sha256 Kh) := by
  rw [hmacKey_of_le (by simp : (sha256 Kh).length ≤ 64)]
  simp only [hmacKey, if_neg (Nat.not_le.mpr h)]

/-- The appended zero is the first of the zeros that fill the key. -/
theorem hmacKey_append_zero {Kh : List Byte} (h : Kh.length < 64) : hmacKey (Kh ++ [0]) = hmacKey Kh := by
  have hfill : 64 - Kh.length = 64 - (Kh ++ [0]).length + 1 := by
    rw [List.length_append, List.length_singleton]
    omega
  rw [hmacKey_of_le (by simpa using h), hmacKey_of_le h.le, hfill, List.replicate_succ, List.append_assoc]
  rfl

theorem hmacKey_of_length_eq {Kh : List Byte} (h : Kh.length = 64) : hmacKey Kh = Kh := by
  rw [hmacKey_of_le h.le, h]
  exact List.append_nil Kh

theorem hmac_eq (Kh M : List Byte) : hmac Kh M =
    sha256 ((hmacKey Kh).map (· ^^^ 0x5C) ++ sha256 ((hmacKey Kh).map (· ^^^ 0x36) ++ M)) := rfl

/-- Settles O35: HMAC reads its key through `hmacKey` alone. -/
theorem hmacKeyRule : Obligations.HmacKeyRule := by
  unfold Obligations.HmacKeyRule
  refine ⟨fun Kh M h => ?_, fun Kh M h => ?_, fun Kh M h => ?_, hmac_length⟩
  · rw [hmac_eq, hmacKey_of_long h, ← hmac_eq]
  · rw [hmac_eq, hmacKey_append_zero h, ← hmac_eq]
  · rw [hmac_eq, hmacKey_of_length_eq h]

/-- Settles O40: each hash evaluated and compared with the printed digits. -/
theorem printedDigests : Obligations.PrintedDigests := by
  unfold Obligations.PrintedDigests
  exact ⟨by decide +kernel, by decide +kernel, by decide +kernel, by decide +kernel, by decide +kernel⟩

/-! ### The primitives and the picks (43_permutation.md R204, R213, R214, C4) -/

theorem permAt_compose_primRom (p q : Fin 36) (i : Fin 96) : permAt (compose (primRom p) (primRom q)) i =
    idxOf (primitiveMap (primitiveOf q) (primitiveMap (primitiveOf p) (cellOf i))) := by
  rw [compose_get, permAt_primRom, permAt_primRom, cellOf_idxOf]

theorem compose_primRom_of_unmap {p q : Fin 36}
    (h : primitiveMap (primitiveOf q) = primitiveUnmap (primitiveOf p)) :
    compose (primRom p) (primRom q) = permId :=
  perm_eq_of_entries fun i => by
    rw [permAt_compose_primRom, h, primitiveUnmap_primitiveMap, idxOf_cellOf, permId_get]

/-- For each column cycle and z-shift one cell shows that no second primitive undoes it. -/
theorem exists_cell_not_returned : ∀ p ∈ ([20, 23, 26, 29, 30, 31, 32, 33, 34, 35] : List (Fin 36)),
    ∃ i : Fin 96, ∀ q : Fin 36,
      idxOf (primitiveMap (primitiveOf q) (primitiveMap (primitiveOf p) (cellOf i))) ≠ i := by
  decide +kernel

/-- Settles O43: primitives whose coordinate maps undo each other compose to the identity; for the other ten a cell
stays away. -/
theorem primitiveBijectionsAndInverses : Obligations.PrimitiveBijectionsAndInverses := by
  unfold Obligations.PrimitiveBijectionsAndInverses
  refine ⟨permBijective_primRom, fun z => ?_, fun z => ?_, fun p hp q hpq => ?_⟩
  · obtain ⟨hcw, hccw, hhalf⟩ := primitiveOf_face z
    exact ⟨compose_primRom_of_unmap (by rw [hcw, hccw]; rfl), compose_primRom_of_unmap (by rw [hhalf]; rfl)⟩
  · obtain ⟨hup, hdown, -⟩ := primitiveOf_line z
    exact compose_primRom_of_unmap (by rw [hup, hdown]; rfl)
  · obtain ⟨i, hi⟩ := exists_cell_not_returned p hp
    exact hi q (by rw [← permAt_compose_primRom, hpq, permId_get])

theorem picksFrom_length (n : Nat) (s : Word64) : (picksFrom n s).length = n := by
  induction n generalizing s with
  | zero => rfl
  | succ n ih => rw [picksFrom_succ, List.length_cons, ih]

/-- Assembly composes the primitives of the picks onto the accumulator, first pick first. -/
theorem assemble_eq_foldl (n : Nat) (s : Word64) (acc : Perm) :
    assemble n s acc = (picksFrom n s).foldl (fun acc p => compose acc (primRom p)) acc := by
  induction n generalizing s acc with
  | zero => rfl
  | succ n ih => rw [assemble_succ, picksFrom_succ, List.foldl_cons, ih]

/-- Settles O46: assembly draws and composes in the order of the picks; the printed picks are evaluated. -/
theorem roundPermIsProductOfPicks : Obligations.RoundPermIsProductOfPicks := by
  unfold Obligations.RoundPermIsProductOfPicks
  exact ⟨fun seed => ⟨picksFrom_length 12 seed, assemble_eq_foldl 12 seed permId⟩, fun d => rfl,
    picksFrom_sourceSeed, by decide⟩

/-! ### The masked merge (43_permutation.md R222) -/

/-- Settles O50: on a one-bit mask the merge is the bit store of a byte. -/
theorem mergeWritesOneBit : Obligations.MergeWritesOneBit := by
  unfold Obligations.MergeWritesOneBit
  intro byte bit o j
  rw [mergeByte_oneHot, storedByte_getLsbD]

end Sys2Proof.Machine
end

section
/-! PROOFS. The textual form (30_encoding.md R87, R88): the words of a line, hex digits and the Block they write, and the
lines of the three commands with an operand. -/

namespace Sys2Proof.Machine

open Certificates

/-! ### The words of a line -/

theorem lineWords_blank (l acc : List Char) : lineWords (' ' :: l) acc =
    if acc.isEmpty then lineWords l [] else acc.reverse :: lineWords l [] := rfl

theorem lineWords_blanks (n : Nat) (l : List Char) :
    lineWords (List.replicate n ' ' ++ l) [] = lineWords l [] := by
  induction n with
  | zero => rfl
  | succ n ih => exact ih

/-- Blanks at the end of a line write no word. -/
theorem lineWords_append_blanks (l : List Char) (n : Nat) (acc : List Char) :
    lineWords (l ++ List.replicate n ' ') acc = lineWords l acc := by
  induction l generalizing acc with
  | nil =>
    cases n with
    | zero => rfl
    | succ n =>
      have hblanks : lineWords (List.replicate n ' ') [] = [] := by simpa [lineWords] using lineWords_blanks n []
      rw [List.nil_append, List.replicate_succ, lineWords_blank, hblanks]
      rfl
  | cons c l ih => simp only [List.cons_append, lineWords, ih]

section
variable {w : List Char} (hw : ' ' ∉ w)
include hw

/-- A word is read up to the next blank or the end of the line. -/
theorem lineWords_append (l acc : List Char) : lineWords (w ++ l) acc = lineWords l (w.reverse ++ acc) := by
  induction w generalizing acc with
  | nil => rfl
  | cons c w ih =>
    obtain ⟨hc, hw⟩ := not_or.mp (mt List.mem_cons.mpr hw)
    rw [List.cons_append, lineWords, if_neg (Ne.symm hc), ih hw, List.reverse_cons, List.append_assoc]
    rfl

theorem lineWords_of_word (hne : w ≠ []) : lineWords w [] = [w] := by
  have hread := lineWords_append hw [] []
  rw [List.append_nil, List.append_nil] at hread
  rw [hread, lineWords, if_neg (by simpa using hne), List.reverse_reverse]

theorem lineWords_word_blank (hne : w ≠ []) (l : List Char) : lineWords (w ++ ' ' :: l) [] = w :: lineWords l [] := by
  rw [lineWords_append hw, List.append_nil, lineWords_blank, if_neg (by simpa using hne), List.reverse_reverse]

end

/-! ### Comments -/

/-- Before a comment the line ends, and some of the blanks before it are left. -/
theorem takeWhile_comment (line comment : List Char) (n : Nat) : ∃ m,
    (line ++ List.replicate n ' ' ++ ';' :: comment).takeWhile (· ≠ ';') =
      line.takeWhile (· ≠ ';') ++ List.replicate m ' ' := by
  by_cases h : (line.takeWhile (· ≠ ';')).length = line.length
  · refine ⟨n, ?_⟩
    rw [List.append_assoc, List.takeWhile_append, if_pos h,
      (List.takeWhile_sublist _).eq_of_length h,
      List.takeWhile_append_of_pos (fun c hc => by rw [List.eq_of_mem_replicate hc]; decide)]
    simp
  · refine ⟨0, ?_⟩
    rw [List.append_assoc, List.takeWhile_append, if_neg h]
    exact (List.append_nil _).symm

theorem textEvent_comment (key data : Block) (line comment : List Char) (n : Nat) :
    textEvent key data (line ++ List.replicate n ' ' ++ ';' :: comment) = textEvent key data line := by
  obtain ⟨m, hm⟩ := takeWhile_comment line comment n
  simp only [textEvent, hm, lineWords_append_blanks]

/-! ### Hex digits (R87, 20_memory.md R59) -/

theorem hexDigit_of_writesDigit {w : List Char} {j v : Nat} (hv : v < 16) (h : WritesDigit w j v) :
    w[j]?.bind hexDigit = some v := by
  have hdigits : ∀ v : Fin 16,
      ['0', '1', '2', '3', '4', '5', '6', '7', '8', '9', 'A', 'B', 'C', 'D', 'E', 'F'][v.val]?.bind hexDigit =
        some v.val ∧
      ['0', '1', '2', '3', '4', '5', '6', '7', '8', '9', 'a', 'b', 'c', 'd', 'e', 'f'][v.val]?.bind hexDigit =
        some v.val := by
    decide
  obtain ⟨hupper, hlower⟩ := hdigits ⟨v, hv⟩
  obtain h | h := h
  · rw [h, hupper]
  · rw [h, hlower]

/-- A string of the low hex digits of `N` reads `N`, when what was read before are the digits above. -/
theorem hexValue_of_digits {w : List Char} {N : Nat}
    (h : ∀ j < w.length, w[j]?.bind hexDigit = some (N / 16 ^ (w.length - 1 - j) % 16)) :
    hexValue w (N / 16 ^ w.length) = some N := by
  induction w with
  | nil => simp [hexValue]
  | cons c w ih =>
    have hc : hexDigit c = some (N / 16 ^ w.length % 16) := h 0 (Nat.succ_pos _)
    have hacc : 16 * (N / 16 ^ (w.length + 1)) + N / 16 ^ w.length % 16 = N / 16 ^ w.length := by
      rw [pow_succ, ← Nat.div_div_eq_div_mul]
      omega
    have htail : ∀ j < w.length, w[j]?.bind hexDigit = some (N / 16 ^ (w.length - 1 - j) % 16) := fun j hj => by
      have hj' := h (j + 1) (Nat.succ_lt_succ hj)
      rwa [List.length_cons, show w.length + 1 - 1 - (j + 1) = w.length - 1 - j by omega] at hj'
    simp only [List.length_cons, hexValue, hc, hacc]
    exact ih htail

/-! ### The Block that 24 digits write -/

theorem blockByte_toNat (B : Block) (k : Fin 12) :
    (blockByte B k).toNat = B.toNat / 16 ^ (22 - 2 * k.val) % 256 := by
  have hpow : (2 : Nat) ^ (88 - 8 * k.val) = 16 ^ (22 - 2 * k.val) := by
    rw [show (16 : Nat) = 2 ^ 4 from rfl, ← pow_mul]
    congr 1
    omega
  rw [blockByte, BitVec.extractLsb'_toNat, Nat.shiftRight_eq_div_pow, hpow]

section
variable {B : Block} {w : List Char} (h : WritesBlock B w)
include h

/-- Character j is digit 23 − j of the Block's number: byte k has the digits 23 − 2k and 22 − 2k. -/
theorem hexDigit_of_writesBlock {j : Nat} (hj : j < 24) :
    w[j]?.bind hexDigit = some (B.toNat / 16 ^ (23 - j) % 16) := by
  obtain ⟨-, hbytes⟩ := h
  obtain ⟨hhigh, hlow⟩ := hbytes ⟨j / 2, by omega⟩
  rw [blockByte_toNat] at hhigh hlow
  dsimp only at hhigh hlow
  obtain heven | hodd := Nat.mod_two_eq_zero_or_one j
  · have hdigit : B.toNat / 16 ^ (22 - j) % 256 / 16 = B.toNat / 16 ^ (23 - j) % 16 := by
      rw [show 23 - j = 22 - j + 1 by omega, pow_succ, ← Nat.div_div_eq_div_mul]
      omega
    rw [show 2 * (j / 2) = j by omega, hdigit] at hhigh
    exact hexDigit_of_writesDigit (Nat.mod_lt _ (by decide)) hhigh
  · rw [show 2 * (j / 2) + 1 = j by omega, show 22 - 2 * (j / 2) = 23 - j by omega,
      Nat.mod_mod_of_dvd _ (by decide)] at hlow
    exact hexDigit_of_writesDigit (Nat.mod_lt _ (by decide)) hlow

theorem hexBlock_of_writesBlock : hexBlock w = some B := by
  have hlen : w.length = 24 := h.1
  have hlt : B.toNat < 16 ^ 24 := B.isLt
  have hvalue : hexValue w (B.toNat / 16 ^ w.length) = some B.toNat := hexValue_of_digits fun j hj => by
    rw [hlen] at hj ⊢
    exact hexDigit_of_writesBlock h hj
  rw [hlen, Nat.div_eq_of_lt hlt] at hvalue
  rw [hexBlock, if_pos hlen, hvalue, Option.map_some, BitVec.ofNat_toNat, BitVec.setWidth_eq]

/-- All 24 characters are digits. -/
theorem not_mem_of_writesBlock {c : Char} (hc : hexDigit c = none) : c ∉ w := by
  intro hmem
  obtain ⟨j, hj⟩ := List.mem_iff_getElem?.mp hmem
  have hlt : j < w.length := (List.getElem?_eq_some_iff.mp hj).1
  have hdigit := hexDigit_of_writesBlock h (h.1 ▸ hlt)
  rw [hj, Option.bind_some, hc] at hdigit
  exact absurd hdigit (by simp)

end

theorem hexBlock_of_length_ne {w : List Char} (h : w.length ≠ 24) : hexBlock w = none := if_neg h

/-! ### Lines with an operand -/

/-- However many blanks follow the mnemonic, the rest of the line is one word, or none when it is empty. -/
theorem words_of_operand_line {mn w : List Char} (hmn : mn ≠ [] ∧ ' ' ∉ mn ∧ ';' ∉ mn) (hw : ' ' ∉ w)
    (hc : ';' ∉ w) (n : Nat) :
    lineWords ((mn ++ [' '] ++ List.replicate n ' ' ++ w).takeWhile (· ≠ ';')) [] = [mn, w] ∨
      w = [] ∧ lineWords ((mn ++ [' '] ++ List.replicate n ' ' ++ w).takeWhile (· ≠ ';')) [] = [mn] := by
  obtain ⟨hne, hblank, hcomment⟩ := hmn
  have hmem : ';' ∉ mn ++ [' '] ++ List.replicate n ' ' ++ w := by
    simp [hcomment, hc, List.mem_replicate]
  have hkeep : ∀ c ∈ mn ++ [' '] ++ List.replicate n ' ' ++ w, decide (c ≠ ';') = true := fun c h =>
    decide_eq_true fun heq => hmem (heq ▸ h)
  have hline : (mn ++ [' '] ++ List.replicate n ' ' ++ w).takeWhile (· ≠ ';') =
      mn ++ ' ' :: (List.replicate n ' ' ++ w) := by
    rw [List.takeWhile_eq_self_iff.mpr hkeep]
    simp
  rw [hline, lineWords_word_blank hblank hne, lineWords_blanks]
  by_cases hempty : w = []
  · subst hempty
    exact .inr ⟨rfl, rfl⟩
  · rw [lineWords_of_word hw hempty]
    exact .inl rfl

section
variable {w : List Char} (hw : ' ' ∉ w) (hc : ';' ∉ w) (key data : Block) (n : Nat)
include hw hc

theorem textEvent_setkey :
    textEvent key data (['S', 'E', 'T', 'K', 'E', 'Y', ' '] ++ List.replicate n ' ' ++ w) =
      (hexBlock w).map fun B => .command { cmd := 0x20, keyIn := B, dataIn := data } := by
  obtain h | ⟨rfl, h⟩ := words_of_operand_line (mn := ['S', 'E', 'T', 'K', 'E', 'Y']) (by decide) hw hc n
  all_goals
    simp only [List.cons_append, List.nil_append] at h ⊢
    rw [textEvent, h]
    rfl

theorem textEvent_enc : textEvent key data (['E', 'N', 'C', ' '] ++ List.replicate n ' ' ++ w) =
    (hexBlock w).map fun B => .command { cmd := 0x30, keyIn := key, dataIn := B } := by
  obtain h | ⟨rfl, h⟩ := words_of_operand_line (mn := ['E', 'N', 'C']) (by decide) hw hc n
  all_goals
    simp only [List.cons_append, List.nil_append] at h ⊢
    rw [textEvent, h]
    rfl

theorem textEvent_dec : textEvent key data (['D', 'E', 'C', ' '] ++ List.replicate n ' ' ++ w) =
    (hexBlock w).map fun B => .command { cmd := 0x40, keyIn := key, dataIn := B } := by
  obtain h | ⟨rfl, h⟩ := words_of_operand_line (mn := ['D', 'E', 'C']) (by decide) hw hc n
  all_goals
    simp only [List.cons_append, List.nil_append] at h ⊢
    rw [textEvent, h]
    rfl

end

/-! ### The obligation -/

/-- Settles O60: an operand line has two words, of which the second is read as a Block, digit by digit; a comment cuts
the line before its words are read; the lines without a variable operand are evaluated. -/
theorem textLinesWriteEvents : Obligations.TextLinesWriteEvents := by
  unfold Obligations.TextLinesWriteEvents
  refine ⟨fun key data => ⟨rfl, rfl, rfl, rfl, rfl, rfl, rfl⟩, fun key data B w n hB => ?_, textEvent_comment,
    fun key data w hlen hw hc => ?_, fun key data => ?_⟩
  · have hw : ' ' ∉ w := not_mem_of_writesBlock hB rfl
    have hc : ';' ∉ w := not_mem_of_writesBlock hB rfl
    rw [textEvent_setkey hw hc, textEvent_enc hw hc, textEvent_dec hw hc, hexBlock_of_writesBlock hB]
    exact ⟨rfl, rfl, rfl⟩
  · have hnone := hexBlock_of_length_ne hlen
    refine ⟨?_, ?_, ?_⟩
    · exact (textEvent_setkey hw hc key data 0).trans (by rw [hnone]; rfl)
    · exact (textEvent_enc hw hc key data 0).trans (by rw [hnone]; rfl)
    · exact (textEvent_dec hw hc key data 0).trans (by rw [hnone]; rfl)
  · exact ⟨rfl, rfl, rfl, rfl⟩

end Sys2Proof.Machine
end
